-- ==== Sys2Proof/Word.lean ====
section
/-! DEFINITION. The word types of HILL26 and nothing else; every function on them stands under Machine/. -/

namespace Sys2Proof

/-- A word of a register transaction, and a stored key register: 32 bits (R7 DW and KW, R50). -/
abbrev Word := BitVec 32

/-- A symbol, determinant, inverse or result register: 5 bits (R7 SW, R20). -/
abbrev Symbol := BitVec 5

/-- A byte offset inside the 64-byte block: 0x00 to 0x3F (R7 BLOCK_SIZE, R54). -/
abbrev Offset := BitVec 6

/-- Text at the host: a sequence of characters (R130, R135). -/
abbrev Text := List Char

end Sys2Proof
end

