-- ==== Sys2Proof/Syntax.lean ====
section
/-! DEFINITION. The instructions of HILL26: its three commands (R72), one constructor per row of the opcode table. -/

namespace Sys2Proof

/-- A command. None has an operand field: every operand is a register the command's rule names (R70, R79). -/
inductive Instr
  /-- VALIDATE, the word 0x00000001 (R72, R110). -/
  | validate
  /-- ENC, the word 0x00000002 (R72, R120). -/
  | enc
  /-- DEC, the word 0x00000003 (R72, R121). -/
  | dec
  deriving DecidableEq, Repr

end Sys2Proof
end

