-- ==== Sys2Proof/Machine/Port.lean ====
section
/-! DEFINITION. What passes through the host port: transactions, the Reset event, responses, and the names of the eleven registers. -/

namespace Sys2Proof.Machine

/-- The eleven registers of the map (R55). -/
inductive Reg
  | k11
  | k12
  | k21
  | k22
  | vin
  | cmd
  | status
  | det
  | detinv
  | ikey
  | vout
  deriving DecidableEq, Repr

/-- What the host delivers at the port (R50).
The width of an access and the byte lanes of a write are carried, so that the accesses R53 refuses can be written down (log entry 6). -/
inductive HostEvent
  /-- A Read at a byte offset, `bytes` wide. -/
  | read (off : Offset) (bytes : Nat)
  /-- A Write at a byte offset, `bytes` wide, with the enabled byte lanes and the data word. -/
  | write (off : Offset) (bytes : Nat) (lanes : BitVec 4) (w : Word)
  /-- The Reset event (R170). -/
  | reset
  deriving DecidableEq, Repr

/-- What the block answers a transaction with (R50); the Reset event is answered with nothing. -/
inductive HostResponse
  /-- Ok, of a Write. -/
  | ok
  /-- Ok(w), of a Read. -/
  | okWord (w : Word)
  /-- The refusal of R53, which changes no state. -/
  | busError
  deriving DecidableEq, Repr

end Sys2Proof.Machine
end

