-- ==== Sys2Proof/WellFormed.lean ====
section
/-! DEFINITION. Which commands and which transactions are well formed, read off R53, R55 and R70 as ranges of offsets, apart from the register map the machine uses. -/

namespace Sys2Proof

/-- Every command is well formed: it has no operand field that could hold an illegal value (R70, R79). -/
def Instr.wellFormed (i : Instr) : Bool :=
  match i with
  | .validate => true
  | .enc => true
  | .dec => true

namespace Machine

/-- The offset is a multiple of 4 (R53, R58). -/
def HostEvent.aligned (off : Offset) : Bool := off.toNat % 4 == 0

/-- The block supports a Read here: aligned, below the unmapped range that starts at 0x2C, and not the write-only CMD at 0x14 (R53). -/
def HostEvent.readableOffset (off : Offset) : Bool :=
  HostEvent.aligned off && decide (off.toNat < 0x2C) && off.toNat != 0x14

/-- The block supports a Write here: aligned, and one of the six registers from 0x00 to 0x14 that are not read-only (R53, R55). -/
def HostEvent.writableOffset (off : Offset) : Bool :=
  HostEvent.aligned off && decide (off.toNat ≤ 0x14)

/-- The transactions the block supports: every other one answers BusError (R53). -/
def HostEvent.wellFormed : HostEvent → Bool
  | .read off bytes => HostEvent.readableOffset off && bytes == 4
  | .write off bytes lanes _ => HostEvent.writableOffset off && bytes == 4 && lanes == 0xF#4
  | .reset => true

end Machine

end Sys2Proof
end

