-- ==== Sys2Proof/Decode.lean ====
section
/-! DEFINITION. The command decoder, total on 32-bit words and rejecting by name, and after it the encoder (R70, R71, R72, R80). -/

namespace Sys2Proof

/-- Why a command word is reserved (R80). -/
inductive DecodeReject
  /-- A bit of the ZERO field, bits 31 to 4, is set (R71, R80). -/
  | zeroFieldSet
  /-- The ZERO field is 0 and the opcode is 0 or 4 to 15 (R80). -/
  | reservedOp (op : BitVec 4)
  deriving DecidableEq, Repr

/-- What the decoder answers: a command, or the reason the word is reserved. -/
inductive Decoded
  | command (i : Instr)
  | reserved (r : DecodeReject)
  deriving DecidableEq, Repr

/-- The ZERO field of format C, bits 31 to 4 (R71). -/
def zeroField (w : Word) : BitVec 28 := w.extractLsb' 4 28

/-- The OP field of format C, bits 3 to 0 (R71). -/
def opField (w : Word) : BitVec 4 := w.extractLsb' 0 4

/-- The opcode map: a command word is legal only if the whole word is one of three values (R71, R72). -/
def decode (w : Word) : Decoded :=
  if w = 0x00000001#32 then .command .validate
  else if w = 0x00000002#32 then .command .enc
  else if w = 0x00000003#32 then .command .dec
  else if zeroField w ≠ 0#28 then .reserved .zeroFieldSet
  else .reserved (.reservedOp (opField w))

/-- The OP value of a command (R72). -/
def opcode (i : Instr) : BitVec 4 :=
  match i with
  | .validate => 1#4
  | .enc => 2#4
  | .dec => 3#4

/-- The command word in format C: the ZERO field above the OP field (R71). -/
def encode (i : Instr) : Word := 0#28 ++ opcode i

/-- The command the decoder reads from a table row's bits; a value that is no 32-bit word is none (log entry 12). -/
def decodeTableWord (nbits w : Nat) : Option Instr :=
  if w % 2 ^ nbits < 2 ^ 32 then
    match decode (BitVec.ofNat 32 (w % 2 ^ nbits)) with
    | .command i => some i
    | .reserved _ => none
  else none

end Sys2Proof
end

