-- ==== Sys2Proof/Config.lean ====
section
/-! DEFINITION. The constants and the parameters of HILL26 (R7). -/

namespace Sys2Proof

/-- M: the modulus and alphabet size, fixed (R7, R4). -/
abbrev Config.M : Int := 26

/-- N: the key matrix is N x N and a block is N symbols, fixed (R7, R4). -/
abbrev Config.N : Nat := 2

/-- PAD: the host's padding symbol, the letter 'X' (R7, R135). -/
abbrev Config.PAD : Nat := 23

/-- KW: the width in bits of a key register, two's complement signed (R7). -/
abbrev Config.KW : Nat := 32

/-- SW: the width in bits of a symbol, determinant or inverse register (R7). -/
abbrev Config.SW : Nat := 5

/-- DW: the width in bits of every register transaction (R7). -/
abbrev Config.DW : Nat := 32

/-- BLOCK_SIZE: the bytes of address space the block decodes (R7). -/
abbrev Config.BLOCK_SIZE : Nat := 0x40

/-- BASE: the platform address of offset 0, OPEN (R7, R56): nothing constrains it (log entry 7). -/
opaque Config.BASE : Nat

/-- The two values of PARSE_POLICY (R7, R131). -/
inductive ParsePolicy
  | defaultToZero
  | reject
  deriving DecidableEq, Repr

/-- PARSE_POLICY: the value the source states (R7, R131); the host functions take the policy as an argument. -/
abbrev Config.PARSE_POLICY : ParsePolicy := .defaultToZero

/-- How the host reads a numeric key field: none for a field it cannot parse.
The grammar is not said (R131, N12), so nothing constrains it (log entry 15). -/
opaque Config.parseInteger : Text → Option Int

end Sys2Proof
end

