-- ==== Sys2Proof/Machine/State.lean ====
section
/-! DEFINITION. The state of the machine: the block's twelve elements (R20) and the host's side of the port, with the reset state (R170). -/

namespace Sys2Proof.Machine

/-- The eight error codes of ERR, in the order of their numbers 0 to 7 (R150). -/
inductive ErrCode
  /-- 0: the command succeeded. -/
  | ok
  /-- 1: all four raw key entries are 0. -/
  | keyAllZero
  /-- 2: the determinant is 0 modulo 26. -/
  | keySingular
  /-- 3: the determinant has no inverse modulo 26. -/
  | keyNonInvertible
  /-- 4: the host's EmptyInput; the block never writes it (R152). -/
  | emptyInput
  /-- 5: ENC or DEC with VALID = 0. -/
  | noKey
  /-- 6: ENC or DEC with V1 or V2 above 25. -/
  | badSymbol
  /-- 7: a reserved word was written to CMD. -/
  | illegalCmd
  deriving DecidableEq, Repr

/-- The whole state of the block: the twelve elements of R20.
The key registers hold the raw 32-bit words, read as signed integers (R21, log entry 9). -/
structure Block where
  k11 : Word
  k12 : Word
  k21 : Word
  k22 : Word
  v1 : Symbol
  v2 : Symbol
  det : Symbol
  detinv : Symbol
  r1 : Symbol
  r2 : Symbol
  valid : Bool
  err : ErrCode
  deriving DecidableEq, Repr

/-- The block after Reset: the reset column of R20, 0 for all twelve (R170). -/
def Block.reset : Block where
  k11 := 0#32
  k12 := 0#32
  k21 := 0#32
  k22 := 0#32
  v1 := 0#5
  v2 := 0#5
  det := 0#5
  detinv := 0#5
  r1 := 0#5
  r2 := 0#5
  valid := false
  err := .ok

/-- The machine: the block, and the host's side of its one port (R60).
`port` holds what the host has delivered and the block has not yet answered, next one first (log entry 1);
`answers` holds the responses given so far, newest first (log entry 2). -/
structure State where
  block : Block
  port : List HostEvent
  answers : List HostResponse
  deriving DecidableEq, Repr

/-- The machine right after reset: the block at its reset values (R170), no transaction delivered, none answered. -/
def State.reset : State where
  block := Block.reset
  port := []
  answers := []

/-- The reasons the machine stops with a fault: none.
HILL26 has no trap and no stuck state: an error is a code in ERR (R156, R179) and a refused access is the response BusError, after which the block goes on (R53, log entry 5). -/
inductive Fault
  deriving DecidableEq, Repr

/-- The reasons the model refuses an instruction. -/
inductive Refusal
  /-- An instruction of the table that has no meaning in the model yet; raised by no arm of `exec`.
  Safe: the model stops where the hardware would go on. -/
  | notModelled (mnemonic : String)
  deriving DecidableEq, Repr

end Sys2Proof.Machine
end

