-- ==== Sys2Proof/Machine/Units.lean ====
section
/-! DEFINITION. The arithmetic units: floormod, det26, inv26, mvm26, invkey26 and the extended-Euclid form of inv26 (40_arith_units.md), on unbounded integers (R91). -/

namespace Sys2Proof.Machine

/-- The 2x2 matrix with first row `m11, m12` and second row `m21, m22` (R11). -/
structure Matrix2 where
  m11 : Int
  m12 : Int
  m21 : Int
  m22 : Int
  deriving DecidableEq, Repr

/-- `x - m * floor(x / m)`, the remainder that is never negative, for `m > 0` (R90).
R10 and R90 give no value for `m` of 0 or less, where this is the same formula (DESIGN CHOICE, log entry 21); every call passes 26. -/
def floormod (x m : Int) : Int := x - m * Int.fdiv x m

/-- The DET unit (R92). -/
def det26 (k : Matrix2) : Int :=
  floormod (k.m11 * k.m22 - k.m12 * k.m21) Config.M

/-- The candidates of the INV unit's search: 1 to 25 in this order (R94, C2). -/
def inv26Candidates : List Nat := List.range' 1 25

/-- The INV unit: the first candidate whose product with `d` is 1 modulo 26, and 0 when there is none (R94). -/
def inv26 (d : Int) : Int :=
  match inv26Candidates.find? (fun x => floormod (d * (x : Int)) Config.M == 1) with
  | some x => x
  | none => 0

/-- The MVM unit: the matrix times the column vector `(v1, v2)` (R96). -/
def mvm26 (m : Matrix2) (v1 v2 : Int) : Int × Int :=
  (floormod (m.m11 * v1 + m.m12 * v2) Config.M, floormod (m.m21 * v1 + m.m22 * v2) Config.M)

/-- The inverse-key derivation: `di` times the adjugate of the key, entry by entry, for `di` in 1 to 25 (R97; outside it log entry 21). -/
def invkey26 (k : Matrix2) (di : Int) : Matrix2 where
  m11 := floormod (di * k.m22) Config.M
  m12 := floormod (di * (-k.m12)) Config.M
  m21 := floormod (di * (-k.m21)) Config.M
  m22 := floormod (di * k.m11) Config.M

/-- The loop of the extended Euclid on `(r0, r1)` and `(t0, t1)`, for at most `fuel` turns: the last `(r0, t0)` (R98). -/
def euclidLoop : Nat → Int → Int → Int → Int → Int × Int
  | 0, r0, _, t0, _ => (r0, t0)
  | fuel + 1, r0, r1, t0, t1 =>
    if r1 = 0 then (r0, t0)
    else
      let q := Int.fdiv r0 r1
      euclidLoop fuel r1 (r0 - q * r1) t1 (t0 - q * t1)

/-- The INV unit by extended Euclid, for `d` in 0 to 25 (R98); 26 turns are enough, since the remainder falls at each one. -/
def inv26Euclid (d : Int) : Int :=
  let rt := euclidLoop 26 Config.M d 0 1
  if rt.1 = 1 then floormod rt.2 Config.M else 0

end Sys2Proof.Machine
end

