-- ==== Sys2Proof/Machine/Operands.lean ====
section
/-! DEFINITION. How the commands and the transactions read and lay out operands: signed key words, unsigned symbols, packed pairs (R10, R63, R73 to R79). -/

namespace Sys2Proof.Machine

/-- `sint32(w)`: the two's complement value of a word (R10). -/
def sint32 (w : Word) : Int := w.toInt

/-- `word32(i)`: the word whose `sint32` is `i`, for `i` in the signed 32-bit range (R10).
Outside that range R10 gives no word; the model takes the low 32 bits (DESIGN CHOICE, log entry 20). -/
def word32 (i : Int) : Word := BitVec.ofInt 32 i

/-- `zext_32(v)`: a 5-bit register as a word whose upper bits are 0 (R10, R75, R76). -/
def zext32 (v : Symbol) : Word := v.setWidth 32

/-- The 5-bit register value of a unit's result in 0 to 25 (R25, R26, R27). -/
def symbolOf (r : Int) : Symbol := BitVec.ofInt 5 r

/-- The unsigned value of a 5-bit register (R79). -/
def symbolInt (v : Symbol) : Int := (v.toNat : Int)

/-- The key matrix: the four key registers read as signed integers (R21, R79). -/
def Block.key (b : Block) : Matrix2 where
  m11 := sint32 b.k11
  m12 := sint32 b.k12
  m21 := sint32 b.k21
  m22 := sint32 b.k22

/-- The layout of VIN and VOUT: the first symbol in bits 4 to 0, the second in bits 12 to 8, all other bits 0 (R74, R78). -/
def pairWord (first second : Symbol) : Word := 0#19 ++ second ++ 0#3 ++ first

/-- The first symbol of a pair word: bits 4 to 0 (R74). -/
def firstOfPair (w : Word) : Symbol := w.extractLsb' 0 5

/-- The second symbol of a pair word: bits 12 to 8 (R74). -/
def secondOfPair (w : Word) : Symbol := w.extractLsb' 8 5

/-- The IKEY layout: i11, i12, i21, i22 in the bytes 0 to 3, each in the low 5 bits of its byte (R32, R77). -/
def ikeyWord (i : Matrix2) : Word :=
  0#3 ++ symbolOf i.m22 ++ 0#3 ++ symbolOf i.m21 ++ 0#3 ++ symbolOf i.m12 ++ 0#3 ++ symbolOf i.m11

end Sys2Proof.Machine
end

