-- ==== Sys2Proof/Machine/Flags.lean ====
section
/-! DEFINITION. How VALID and ERR are computed and read: the key checks, the operand checks, the numbers of the codes and the STATUS word (R28 to R31, R110, R122, R150, R155). -/

namespace Sys2Proof.Machine

/-- The 3-bit number of an error code (R150). -/
def ErrCode.bits (e : ErrCode) : BitVec 3 :=
  match e with
  | .ok => 0#3
  | .keyAllZero => 1#3
  | .keySingular => 2#3
  | .keyNonInvertible => 3#3
  | .emptyInput => 4#3
  | .noKey => 5#3
  | .badSymbol => 6#3
  | .illegalCmd => 7#3

/-- All four raw key entries are the integer 0 (R110, C6). -/
def Matrix2.allZero (k : Matrix2) : Bool :=
  k.m11 == 0 && k.m12 == 0 && k.m21 == 0 && k.m22 == 0

/-- The code VALIDATE ends with: the three key checks in the document's order (R110, R155). -/
def keyCheck (k : Matrix2) : ErrCode :=
  if k.allZero then .keyAllZero
  else if det26 k = 0 then .keySingular
  else if inv26 (det26 k) = 0 then .keyNonInvertible
  else .ok

/-- The code ENC and DEC end with: NO_KEY before BAD_SYMBOL (R122, R155). -/
def operandCheck (b : Block) : ErrCode :=
  if b.valid = false then .noKey
  else if 25 < b.v1.toNat ∨ 25 < b.v2.toNat then .badSymbol
  else .ok

/-- The STATUS word: ERR in bits 6 to 4, VALID in bit 0, every other bit 0 (R31). -/
def statusWord (b : Block) : Word := 0#25 ++ b.err.bits ++ 0#3 ++ BitVec.ofBool b.valid

/-- The VALID bit of a STATUS word (R133). -/
def statusValid (st : Word) : Bool := st.extractLsb' 0 1 == 1#1

/-- The ERR field of a STATUS word (R133). -/
def statusErr (st : Word) : BitVec 3 := st.extractLsb' 4 3

end Sys2Proof.Machine
end

