-- ==== Sys2Proof/Machine/Ops.lean ====
section
/-! DEFINITION. The named operations on the block and on the machine that the meanings and the transactions share: the register map, register reads and writes, raising an error, and the port. -/

namespace Sys2Proof.Machine

/-- Go on with `f` where an outcome is a next state, and keep a stop as it is. -/
def andThen {σ τ φ ρ : Type} (o : Host.Outcome σ φ ρ) (f : σ → Host.Outcome τ φ ρ) : Host.Outcome τ φ ρ :=
  match o with
  | .next s => f s
  | .fault r => .fault r
  | .refused r => .refused r

/-- ERR takes a code and nothing else changes (R29, R151). -/
def Block.setErr (e : ErrCode) (b : Block) : Block := { b with err := e }

/-- What a successful ENC or DEC writes: the result pair together, and ERR <- 0 (R59, R120, R121). -/
def Block.setResult (r : Int × Int) (b : Block) : Block :=
  { b with r1 := symbolOf r.1, r2 := symbolOf r.2, err := .ok }

/-- What VALIDATE writes: DET, DETINV, ERR and VALID, always all four (R59, R110). -/
def Block.setValidation (d di : Int) (e : ErrCode) (b : Block) : Block :=
  { b with det := symbolOf d, detinv := symbolOf di, err := e, valid := e == .ok }

/-- A write of K11: the word is stored and VALID is cleared (R22). -/
def Block.setK11 (w : Word) (b : Block) : Block := { b with k11 := w, valid := false }

/-- A write of K12 (R22). -/
def Block.setK12 (w : Word) (b : Block) : Block := { b with k12 := w, valid := false }

/-- A write of K21 (R22). -/
def Block.setK21 (w : Word) (b : Block) : Block := { b with k21 := w, valid := false }

/-- A write of K22 (R22). -/
def Block.setK22 (w : Word) (b : Block) : Block := { b with k22 := w, valid := false }

/-- A write of VIN: both symbols together, the other bits of the word ignored (R59, R74). -/
def Block.setVin (w : Word) (b : Block) : Block :=
  { b with v1 := firstOfPair w, v2 := secondOfPair w }

/-- The machine with another block. -/
def State.withBlock (b : Block) (s : State) : State := { s with block := b }

/-- The machine with one more response, the newest (log entry 2). -/
def State.answer (r : HostResponse) (s : State) : State := { s with answers := r :: s.answers }

/-- The machine with one event at the port before all others (log entries 1 and 16). -/
def State.present (e : HostEvent) (s : State) : State := { s with port := e :: s.port }

/-- The machine after the first event has been taken from the port. -/
def State.withPort (p : List HostEvent) (s : State) : State := { s with port := p }

/-- `raise <Error>`: the command ends with the error's code in ERR and writes nothing else.
This is all there is of taking an exception: no control is transferred and nothing is saved (R10, R151, R156),
so there is no operation that returns from one (R157). -/
def raise (e : ErrCode) (s : State) : State := s.withBlock (s.block.setErr e)

/-- ENC and DEC on a matrix: the operand check, then the MVM unit on the pair in V1 and V2, or the error (R120, R121, R122). -/
def transformPair (m : Matrix2) (s : State) : State :=
  if operandCheck s.block = .ok then
    s.withBlock (s.block.setResult (mvm26 m (symbolInt s.block.v1) (symbolInt s.block.v2)))
  else raise (operandCheck s.block) s

/-- The offset of a register (R55). -/
def Reg.offset (r : Reg) : Offset :=
  match r with
  | .k11 => 0x00#6
  | .k12 => 0x04#6
  | .k21 => 0x08#6
  | .k22 => 0x0C#6
  | .vin => 0x10#6
  | .cmd => 0x14#6
  | .status => 0x18#6
  | .det => 0x1C#6
  | .detinv => 0x20#6
  | .ikey => 0x24#6
  | .vout => 0x28#6

/-- The register an offset selects: none for a misaligned or an unmapped offset (R53, R55, R58). -/
def regAt (off : Offset) : Option Reg :=
  match off.toNat with
  | 0x00 => some .k11
  | 0x04 => some .k12
  | 0x08 => some .k21
  | 0x0C => some .k22
  | 0x10 => some .vin
  | 0x14 => some .cmd
  | 0x18 => some .status
  | 0x1C => some .det
  | 0x20 => some .detinv
  | 0x24 => some .ikey
  | 0x28 => some .vout
  | _ => none

/-- The IKEY view: the inverse key of the stored key when VALID = 1, else the word 0 (R32). -/
def ikeyView (b : Block) : Word :=
  if b.valid then ikeyWord (invkey26 b.key (symbolInt b.detinv)) else 0#32

/-- The read value of a register: the read column of R55, none for the write-only CMD. -/
def readReg (r : Reg) (b : Block) : Option Word :=
  match r with
  | .k11 => some (word32 (sint32 b.k11))
  | .k12 => some (word32 (sint32 b.k12))
  | .k21 => some (word32 (sint32 b.k21))
  | .k22 => some (word32 (sint32 b.k22))
  | .vin => some (pairWord b.v1 b.v2)
  | .cmd => none
  | .status => some (statusWord b)
  | .det => some (zext32 b.det)
  | .detinv => some (zext32 b.detinv)
  | .ikey => some (ikeyView b)
  | .vout => some (pairWord b.r1 b.r2)

/-- The access column of R55: the registers a Write may go to. -/
def Reg.writable (r : Reg) : Bool :=
  match r with
  | .k11 => true
  | .k12 => true
  | .k21 => true
  | .k22 => true
  | .vin => true
  | .cmd => true
  | .status => false
  | .det => false
  | .detinv => false
  | .ikey => false
  | .vout => false

/-- The effect of a Write on a register that only stores: the write column of R55.
CMD stores nothing (R31); its command is run by the transaction, and a read-only register is never written. -/
def storeReg (r : Reg) (w : Word) (b : Block) : Block :=
  match r with
  | .k11 => b.setK11 w
  | .k12 => b.setK12 w
  | .k21 => b.setK21 w
  | .k22 => b.setK22 w
  | .vin => b.setVin w
  | .cmd => b
  | .status => b
  | .det => b
  | .detinv => b
  | .ikey => b
  | .vout => b

/-- The response to a Read: the register's value, or BusError where the block does not support the access (R51, R53). -/
def readResponse (off : Offset) (bytes : Nat) (b : Block) : HostResponse :=
  match (if bytes = 4 then regAt off else none) with
  | none => .busError
  | some r =>
    match readReg r b with
    | some w => .okWord w
    | none => .busError

/-- The register a Write goes to: none where the block does not support the access (R52, R53). -/
def writeTarget (off : Offset) (bytes : Nat) (lanes : BitVec 4) : Option Reg :=
  if bytes = 4 ∧ lanes = 0xF#4 then
    match regAt off with
    | some r => if r.writable then some r else none
    | none => none
  else none

/-- The Write of a command word to CMD, at offset 0x14 (R70). -/
def cmdWrite (w : Word) : HostEvent := .write 0x14#6 4 0xF#4 w

end Sys2Proof.Machine
end

