-- ==== Sys2Proof/Machine/BlockTransform.lean ====
section
/-! DEFINITION. The block-transform family: ENC and DEC (42_cmd_block_transform.md). -/

namespace Sys2Proof.Machine

/-- ENC: the pair in V1, V2 times the key matrix (R120, R122). -/
def execEnc (s : State) : Host.Outcome State Fault Refusal :=
  .next (transformPair s.block.key s)

/-- DEC: the pair in V1, V2 times the inverse key, derived anew from the key and DETINV (R121, R122). -/
def execDec (s : State) : Host.Outcome State Fault Refusal :=
  .next (transformPair (invkey26 s.block.key (symbolInt s.block.detinv)) s)

end Sys2Proof.Machine
end

