-- ==== Sys2Proof/Machine/KeyValidation.lean ====
section
/-! DEFINITION. The key-validation family: VALIDATE (41_cmd_validate.md). -/

namespace Sys2Proof.Machine

/-- VALIDATE: the DET and INV units on the key registers, the three key checks, and the four elements written (R110). -/
def execValidate (s : State) : Host.Outcome State Fault Refusal :=
  .next (s.withBlock
    (s.block.setValidation (det26 s.block.key) (inv26 (det26 s.block.key)) (keyCheck s.block.key)))

end Sys2Proof.Machine
end

