-- ==== Sys2Proof/Machine/Transactions.lean ====
section
/-! DEFINITION. How the block answers one event of the host port (R50 to R53, R72, R80, R170). -/

namespace Sys2Proof.Machine

/-- The step of a Write to CMD, less its response: the command the word encodes, or ILLEGAL_CMD (R72, R80). -/
def runCommand (w : Word) (s : State) : Host.Outcome State Fault Refusal :=
  match decode w with
  | .command i => exec i s
  | .reserved _ => .next (raise .illegalCmd s)

/-- The answer to a Read: its response, and no change of the block (R51, R53). -/
def serveRead (off : Offset) (bytes : Nat) (s : State) : Host.Outcome State Fault Refusal :=
  .next (s.answer (readResponse off bytes s.block))

/-- The answer to a Write: a command is run, another register stores the word, and the response is Ok;
a Write the block does not support changes nothing and its response is BusError (R52, R53, R72). -/
def serveWrite (off : Offset) (bytes : Nat) (lanes : BitVec 4) (w : Word) (s : State) :
    Host.Outcome State Fault Refusal :=
  match writeTarget off bytes lanes with
  | none => .next (s.answer .busError)
  | some .cmd => andThen (runCommand w s) (fun t => .next (t.answer .ok))
  | some r => .next ((s.withBlock (storeReg r w s.block)).answer .ok)

/-- The Reset event: every element of the block takes its reset value, and nothing is answered (R50, R170).
What the host has still to deliver and what it has been answered are the host's (log entry 18). -/
def serveReset (s : State) : Host.Outcome State Fault Refusal :=
  .next (s.withBlock Block.reset)

/-- The block's answer to one event, in one atomic step (R8, R59). -/
def serve (e : HostEvent) (s : State) : Host.Outcome State Fault Refusal :=
  match e with
  | .read off bytes => serveRead off bytes s
  | .write off bytes lanes w => serveWrite off bytes lanes w s
  | .reset => serveReset s

/-- One step: the next event at the port is taken and answered (R60); with no event the block does nothing (R8, R172, log entry 3). -/
def serveNext (s : State) : Host.Outcome State Fault Refusal :=
  match s.port with
  | [] => .next s
  | e :: rest => serve e (s.withPort rest)

end Sys2Proof.Machine
end

