-- ==== Sys2Proof/Machine/Step.lean ====
section
/-! DEFINITION. The step of the machine, and where a command word stands so that the next step runs it. -/

namespace Sys2Proof.Machine

/-- One step: the block answers the next event of the host port (R8, R60). -/
def step (s : State) : Host.Outcome State Fault Refusal := serveNext s

/-- The machine with the Write of this word to CMD as the next event at the port.
HILL26 fetches nothing: a command arrives as such a Write (R33, R70, log entry 4). -/
def State.withFetchWord (s : State) (nbits w : Nat) : State :=
  s.present (cmdWrite (BitVec.ofNat 32 (w % 2 ^ nbits)))

end Sys2Proof.Machine
end

