-- ==== Sys2Proof/Machine/Script.lean ====
section
/-! DEFINITION. The transaction script of host programs, its pseudo-instructions, and running a sequence of events (R82, R60). -/

namespace Sys2Proof.Machine

/-- The host delivers one event and the block answers it: the event is put at the front of the port and the machine takes one step (log entry 16). -/
def issue (e : HostEvent) (s : State) : Host.Outcome State Fault Refusal := step (s.present e)

/-- A sequence of events, delivered and answered one at a time in order (R60, R144). -/
def runEvents : List HostEvent → State → Host.Outcome State Fault Refusal
  | [], s => .next s
  | e :: es, s => andThen (issue e s) (runEvents es)

/-- A Write of a whole word at an offset, every byte lane enabled (R50, R82). -/
def writeAt (off : Offset) (w : Word) : HostEvent := .write off 4 0xF#4 w

/-- A Read of a whole word at an offset (R50, R82). -/
def readAt (off : Offset) : HostEvent := .read off 4

/-- NAME of a script line: a register's name or a hexadecimal offset (R82). -/
inductive ScriptName
  | reg (r : Reg)
  | hex (off : Offset)
  deriving DecidableEq, Repr

/-- The value of a `wr` line: a hexadecimal word, or a signed decimal integer (R82). -/
inductive ScriptValue
  | word (w : Word)
  | signed (i : Int)
  deriving DecidableEq, Repr

/-- One line of a transaction script (R82). -/
inductive ScriptLine
  | wr (name : ScriptName) (value : ScriptValue)
  | rd (name : ScriptName)
  | cmd (i : Instr)
  | reset
  deriving DecidableEq, Repr

/-- The offset a name stands for (R82, R55). -/
def ScriptName.offset (n : ScriptName) : Offset :=
  match n with
  | .reg r => r.offset
  | .hex off => off

/-- The word a value stands for: `i` means `word32(i)` (R82).
An integer outside the signed 32-bit range, and a signed value for a register other than K11 to K22, have no meaning in R82; the model writes the low 32 bits (DESIGN CHOICE, log entry 20). -/
def ScriptValue.toWord (v : ScriptValue) : Word :=
  match v with
  | .word w => w
  | .signed i => word32 i

/-- The event a script line stands for (R82). -/
def ScriptLine.event (l : ScriptLine) : HostEvent :=
  match l with
  | .wr n v => writeAt n.offset v.toWord
  | .rd n => readAt n.offset
  | .cmd i => cmdWrite (encode i)
  | .reset => .reset

/-- Running a script. -/
def runScript (ls : List ScriptLine) (s : State) : Host.Outcome State Fault Refusal :=
  runEvents (ls.map ScriptLine.event) s

/-- `setkey a, b, c, d` (R82); for integers outside the signed 32-bit range see log entry 20 (DESIGN CHOICE). -/
def setkey (a b c d : Int) : List ScriptLine :=
  [.wr (.reg .k11) (.signed a), .wr (.reg .k12) (.signed b),
   .wr (.reg .k21) (.signed c), .wr (.reg .k22) (.signed d)]

/-- `setv v1, v2`: VIN takes the word `v1 + 256 * v2`, for `v1` and `v2` in 0 to 31 (R82).
Outside that range R82 gives no meaning; the model writes the low 32 bits of that sum, in which the two fields may overlap (DESIGN CHOICE, log entry 20). -/
def setv (v1 v2 : Nat) : List ScriptLine :=
  [.wr (.reg .vin) (.word (BitVec.ofNat 32 (v1 + 256 * v2)))]

/-- `encpair v1, v2` (R82). -/
def encpair (v1 v2 : Nat) : List ScriptLine :=
  setv v1 v2 ++ [.cmd .enc, .rd (.reg .status), .rd (.reg .vout)]

/-- `decpair v1, v2` (R82). -/
def decpair (v1 v2 : Nat) : List ScriptLine :=
  setv v1 v2 ++ [.cmd .dec, .rd (.reg .status), .rd (.reg .vout)]

end Sys2Proof.Machine
end

