-- ==== Sys2Proof/Machine/HostContract.lean ====
section
/-! DEFINITION. The host contract: key fields, text to symbols and back, and the validateKey, encrypt and decrypt calls as sequences of transactions (R130 to R144). -/

namespace Sys2Proof.Machine

/-- The reason of the document's InvalidKey (R134). -/
inductive KeyReason
  | allZero
  | singular
  | nonInvertible
  deriving DecidableEq, Repr

/-- The errors a host call returns. -/
inductive HostError
  /-- `InvalidKey(reason)`: ERR = 1, 2 or 3 after VALIDATE (R134). -/
  | invalidKey (r : KeyReason)
  /-- `EmptyInput`: the text holds no letter (R134, R135). -/
  | emptyInput
  /-- A key integer outside the signed 32-bit range: the call is refused with an error of the host's own (R132). -/
  | keyOutOfRange
  /-- A key field that cannot be parsed or is missing, under PARSE_POLICY = reject (R131). -/
  | unparsableField
  /-- A response or a code the host's sequences never see: a bug of the host (R134). -/
  | internal
  deriving DecidableEq, Repr

/-- The one numbering of a host's results: 1 to 3 from the block, 4 for EmptyInput; the host's own errors have no number (R134, R152). -/
def HostError.code (e : HostError) : Option ErrCode :=
  match e with
  | .invalidKey .allZero => some .keyAllZero
  | .invalidKey .singular => some .keySingular
  | .invalidKey .nonInvertible => some .keyNonInvertible
  | .emptyInput => some .emptyInput
  | .keyOutOfRange => none
  | .unparsableField => none
  | .internal => none

/-- The document's ValidatedKey record (R133). -/
structure ValidatedKey where
  matrix : Matrix2
  det : Int
  detInv : Int
  deriving DecidableEq, Repr

/-- What a host call ends with: its result or its error, and the machine it leaves. -/
abbrev HostOutcome (α : Type) := Host.Outcome (Except HostError α × State) Fault Refusal

/-- A key field: a missing or unparsable one is 0, or an error under the policy reject (R131). -/
def parseKeyField (policy : ParsePolicy) (field : Option Text) : Except HostError Int :=
  match field.bind Config.parseInteger with
  | some i => .ok i
  | none =>
    match policy with
    | .defaultToZero => .ok 0
    | .reject => .error .unparsableField

/-- The four key fields in the order k11, k12, k21, k22 (R131). -/
def parseKey (policy : ParsePolicy) (f11 f12 f21 f22 : Option Text) : Except HostError Matrix2 :=
  match parseKeyField policy f11, parseKeyField policy f12, parseKeyField policy f21, parseKeyField policy f22 with
  | .ok a, .ok b, .ok c, .ok d => .ok { m11 := a, m12 := b, m21 := c, m22 := d }
  | _, _, _, _ => .error .unparsableField

/-- A key integer a key register can hold (R21, R132). -/
def keyEntryInRange (i : Int) : Bool := decide (-2 ^ 31 ≤ i) && decide (i < 2 ^ 31)

/-- Every key integer of a call can be loaded (R132). -/
def keyInRange (k : Matrix2) : Bool :=
  keyEntryInRange k.m11 && keyEntryInRange k.m12 && keyEntryInRange k.m21 && keyEntryInRange k.m22

/-- `wr NAME, w`, then the rest of the sequence. -/
def wrThen {α : Type} (r : Reg) (w : Word) (next : State → HostOutcome α) (s : State) : HostOutcome α :=
  andThen (issue (writeAt r.offset w) s) next

/-- `cmd NAME`, then the rest of the sequence. -/
def cmdThen {α : Type} (i : Instr) (next : State → HostOutcome α) (s : State) : HostOutcome α :=
  andThen (issue (cmdWrite (encode i)) s) next

/-- `rd NAME`, then the rest of the sequence with the word read; any other response is an internal error (R134). -/
def rdThen {α : Type} (r : Reg) (next : Word → State → HostOutcome α) (s : State) : HostOutcome α :=
  andThen (issue (readAt r.offset) s) fun t =>
    match t.answers with
    | .okWord w :: _ => next w t
    | _ => .next (.error .internal, t)

/-- What the host makes of the ERR field after VALIDATE (R133): it copies DET and DETINV out on success (D34, log entry 16). -/
def validateResult (k : Matrix2) (st : Word) (s : State) : HostOutcome ValidatedKey :=
  if statusErr st = ErrCode.keyAllZero.bits then .next (.error (.invalidKey .allZero), s)
  else if statusErr st = ErrCode.keySingular.bits then .next (.error (.invalidKey .singular), s)
  else if statusErr st = ErrCode.keyNonInvertible.bits then .next (.error (.invalidKey .nonInvertible), s)
  else if statusErr st = ErrCode.ok.bits ∧ statusValid st = true then
    rdThen .det (fun d => rdThen .detinv (fun di t =>
      .next (.ok { matrix := k, det := (d.toNat : Int), detInv := (di.toNat : Int) }, t))) s
  else .next (.error .internal, s)

/-- The validateKey call: the four key writes, VALIDATE, and the STATUS read (R133);
a key integer outside the range is refused and no transaction is issued (R132). -/
def validateKey (k : Matrix2) (s : State) : HostOutcome ValidatedKey :=
  if keyInRange k then
    wrThen .k11 (word32 k.m11) (wrThen .k12 (word32 k.m12) (wrThen .k21 (word32 k.m21)
      (wrThen .k22 (word32 k.m22) (cmdThen .validate (rdThen .status (validateResult k)))))) s
  else .next (.error .keyOutOfRange, s)

/-- `code(c)`: the character's code point (R136). -/
def code (c : Char) : Nat := c.toNat

/-- `letter(v)`: the character with code `code('A') + v` (R136). -/
def letter (v : Nat) : Char := Char.ofNat (code 'A' + v)

/-- Uppercasing: 'a' to 'z' to the matching 'A' to 'Z', every other character as it is (R137). -/
def uppercase (c : Char) : Char :=
  if code 'a' ≤ code c ∧ code c ≤ code 'z' then Char.ofNat (code c - code 'a' + code 'A') else c

/-- The character is one of 'A' to 'Z' (R135). -/
def isLetter (c : Char) : Bool := decide (code 'A' ≤ code c) && decide (code c ≤ code 'Z')

/-- The letters of a text: uppercased, every other character removed, order kept (R135). -/
def lettersOf (text : Text) : Text := (text.map uppercase).filter isLetter

/-- PAD at the end of a sequence of odd length (R135). -/
def padEven (s : List Nat) : List Nat :=
  if s.length % 2 = 1 then s ++ [Config.PAD] else s

/-- `normalize(text)`: the padded symbols of the text's letters, or EmptyInput (R135, C7). -/
def normalizeText (text : Text) : Except HostError (List Nat) :=
  match lettersOf text with
  | [] => .error .emptyInput
  | c :: cs => .ok (padEven ((c :: cs).map (fun c => code c - code 'A')))

/-- `letters(s)`: symbols to text (R138). -/
def letters (s : List Nat) : Text := s.map letter

/-- The loop over the pairs of a symbol sequence: one command per pair, results appended in order (R140, R141).
A sequence of odd length never comes from `normalize`, and ends in an internal error. -/
def sendPairs (i : Instr) : List Nat → State → HostOutcome (List Nat)
  | [], s => .next (.ok [], s)
  | [_], s => .next (.error .internal, s)
  | v1 :: v2 :: rest, s =>
    wrThen .vin (BitVec.ofNat 32 (v1 + 256 * v2)) (cmdThen i (rdThen .status (fun st t =>
      if statusErr st = ErrCode.ok.bits then
        rdThen .vout (fun w t =>
          andThen (sendPairs i rest t) fun rt =>
            match rt.1 with
            | .ok out => .next (.ok ((firstOfPair w).toNat :: (secondOfPair w).toNat :: out), rt.2)
            | .error e => .next (.error e, rt.2)) t
      else .next (.error .internal, t)))) s

/-- The pair loop on a text: EmptyInput issues no transaction (R140, R141). -/
def transformText (i : Instr) (text : Text) (s : State) : HostOutcome Text :=
  match normalizeText text with
  | .error e => .next (.error e, s)
  | .ok sym =>
    andThen (sendPairs i sym s) fun rt =>
      match rt.1 with
      | .ok out => .next (.ok (letters out), rt.2)
      | .error e => .next (.error e, rt.2)

/-- A whole call: it begins by validating the raw key integers and goes on only with a ValidatedKey (R139). -/
def callWithKey (i : Instr) (k : Matrix2) (text : Text) (s : State) : HostOutcome Text :=
  andThen (validateKey k s) fun rt =>
    match rt.1 with
    | .ok _ => transformText i text rt.2
    | .error e => .next (.error e, rt.2)

/-- The encrypt call on raw key integers and a text (R139, R140). -/
def encrypt (k : Matrix2) (plaintext : Text) (s : State) : HostOutcome Text := callWithKey .enc k plaintext s

/-- The decrypt call on raw key integers and a text (R139, R141). -/
def decrypt (k : Matrix2) (ciphertext : Text) (s : State) : HostOutcome Text := callWithKey .dec k ciphertext s

end Sys2Proof.Machine
end

