-- ==== Sys2Proof/Machine/Platform.lean ====
section
/-! DEFINITION. What stands around one block: the platform address of an offset, and several instances (R7, R36, R56, R163). -/

namespace Sys2Proof.Machine

/-- The platform address of an offset: BASE plus the offset (R7, R50). -/
def platformAddress (off : Offset) : Nat := Config.BASE + off.toNat

/-- The offset of a platform address, none outside the 64 bytes of the block (R54, R56). -/
def offsetOf (addr : Nat) : Option Offset :=
  if Config.BASE ≤ addr ∧ addr < Config.BASE + Config.BLOCK_SIZE then
    some (BitVec.ofNat 6 (addr - Config.BASE))
  else none

/-- A platform with several instances of the block, each with its own port (R163). -/
abbrev Instances := List State

/-- One step of the instance at a place of the list; a place with no instance does nothing (log entry 17). -/
def stepInstance (n : Nat) (p : Instances) : Host.Outcome Instances Fault Refusal :=
  match p[n]? with
  | none => .next p
  | some s => andThen (step s) (fun t => .next (p.set n t))

end Sys2Proof.Machine
end

