-- ==== Sys2Proof/Safety.lean ====
section
/-! DEFINITION. What claims are stated in: the invariant of the block, and a run no rule of the host contract is broken in (R30, R144, R152). -/

namespace Sys2Proof.Machine

/-- R30 (a): the ranges of DET, DETINV, R1 and R2. -/
abbrev Block.ranges (b : Block) : Prop :=
  b.det.toNat ≤ 25 ∧ b.detinv.toNat ≤ 25 ∧ b.r1.toNat ≤ 25 ∧ b.r2.toNat ≤ 25

/-- The key, DET and DETINV of the block are a ValidatedKey: what R30 (b) says of a block with VALID = 1. -/
abbrev Block.holdsValidatedKey (b : Block) : Prop :=
  ¬ (sint32 b.k11 = 0 ∧ sint32 b.k12 = 0 ∧ sint32 b.k21 = 0 ∧ sint32 b.k22 = 0) ∧
  symbolInt b.det = det26 b.key ∧
  b.det.toNat ≠ 0 ∧
  1 ≤ b.detinv.toNat ∧ b.detinv.toNat ≤ 25 ∧
  floormod (symbolInt b.det * symbolInt b.detinv) Config.M = 1 ∧
  Nat.gcd b.det.toNat 26 = 1

/-- The invariant of the state (R30). -/
abbrev Block.Inv (b : Block) : Prop :=
  b.ranges ∧ (b.valid = true → b.holdsValidatedKey)

/-- The two registers of the operand pair hold symbols, 0 to 25 (R24). -/
abbrev Block.symbolsLegal (b : Block) : Prop := b.v1.toNat ≤ 25 ∧ b.v2.toNat ≤ 25

/-- No response so far is a BusError: the host has made no access the block does not support (R53, R144, log entry 5). -/
abbrev State.noBusError (s : State) : Prop := HostResponse.busError ∉ s.answers

/-- The event is a Write of one of the key registers (R22). -/
def HostEvent.writesKey (e : HostEvent) : Bool :=
  match e with
  | .write off bytes lanes _ => decide (off.toNat ≤ 0x0C) && off.toNat % 4 == 0 && bytes == 4 && lanes == 0xF#4
  | .read _ _ => false
  | .reset => false

/-- The event is a Write of VIN (R74). -/
def HostEvent.writesVin (e : HostEvent) : Bool :=
  match e with
  | .write off bytes lanes _ => off.toNat == 0x10 && bytes == 4 && lanes == 0xF#4
  | .read _ _ => false
  | .reset => false

/-- The event is a Write to CMD, of any word (R29). -/
def HostEvent.writesCmd (e : HostEvent) : Bool :=
  match e with
  | .write off bytes lanes _ => off.toNat == 0x14 && bytes == 4 && lanes == 0xF#4
  | .read _ _ => false
  | .reset => false

/-- The event is answered: it is a Read or a Write and not the Reset event (R50). -/
def HostEvent.answered (e : HostEvent) : Bool :=
  match e with
  | .read _ _ => true
  | .write _ _ _ _ => true
  | .reset => false

/-- The text holds, for each pair of the symbol sequence and in order, the two letters of the matrix times the pair (R96, R138, R140). -/
abbrev lettersOfProducts (m : Matrix2) (sym : List Nat) (out : Text) : Prop :=
  out.length = sym.length ∧
  ∀ j v1 v2 : Nat, sym[2 * j]? = some v1 → sym[2 * j + 1]? = some v2 →
    out[2 * j]? = some (letter (mvm26 m v1 v2).1.toNat) ∧ out[2 * j + 1]? = some (letter (mvm26 m v1 v2).2.toNat)

end Sys2Proof.Machine
end

