-- ==== Sys2Proof/Certificates/Slice0/Obligations.lean ====
section
/-! DEFINITION. The statements about the HILL26 model, from the numbered rules of its spec. -/

open Sys2Proof Sys2Proof.Machine

/-! ## Encoding -/

/-- The command words of the opcode table and a few reserved words, written out from R72 and the vectors of section 2.7: sanity only. -/
def Obligations.CommandWordsDecodeAsTheTableSays : Prop :=
  decode 0x00000001#32 = .command .validate ∧
  decode 0x00000002#32 = .command .enc ∧
  decode 0x00000003#32 = .command .dec ∧
  decode 0x00000000#32 = .reserved (.reservedOp 0#4) ∧
  decode 0x00000004#32 = .reserved (.reservedOp 4#4) ∧
  decode 0x0000000F#32 = .reserved (.reservedOp 15#4) ∧
  decode 0x00000011#32 = .reserved .zeroFieldSet ∧
  decode 0x80000002#32 = .reserved .zeroFieldSet

/-- R71: the whole word is matched, so a word decodes to a command exactly when it is that command's encoding,
and then bits 31 to 4 are 0 and bits 3 to 0 are the opcode. -/
def Obligations.DecodingMatchesTheWholeWord : Prop :=
  (∀ i : Instr, i.wellFormed = true → decode (encode i) = .command i) ∧
  (∀ (w : Word) (i : Instr), decode w = .command i →
    w = encode i ∧ w.toNat / 16 = 0 ∧ w.toNat % 16 = (opcode i).toNat) ∧
  (∀ w : Word, (∃ i, decode w = .command i) ↔ w.toNat = 1 ∨ w.toNat = 2 ∨ w.toNat = 3)

/-! ## Commands as steps -/

/-- R72: when the next transaction writes a word to CMD that decodes to a command, the step is that command's meaning
on the machine with the transaction taken, and then the response Ok. -/
def Obligations.StepRunsTheDecodedCommand : Prop :=
  ∀ (s : State) (rest : List HostEvent) (w : Word) (i : Instr),
    s.port = cmdWrite w :: rest → decode w = .command i →
    step s = andThen (exec i { s with port := rest })
      (fun t => .next { t with answers := .ok :: t.answers })

/-- R72 and R80: the step of a Write to CMD, for every word; a reserved word sets ERR to ILLEGAL_CMD and changes nothing else,
and the Write always answers Ok. -/
def Obligations.CommandWriteFollowsTheOpcodeMap : Prop :=
  ∀ (s : State) (rest : List HostEvent) (w : Word), s.port = .write 0x14#6 4 0xF#4 w :: rest →
    (w.toNat = 1 → ∃ t, exec .validate { s with port := rest } = .next t ∧
      step s = .next { t with answers := .ok :: s.answers }) ∧
    (w.toNat = 2 → ∃ t, exec .enc { s with port := rest } = .next t ∧
      step s = .next { t with answers := .ok :: s.answers }) ∧
    (w.toNat = 3 → ∃ t, exec .dec { s with port := rest } = .next t ∧
      step s = .next { t with answers := .ok :: s.answers }) ∧
    (w.toNat ≠ 1 → w.toNat ≠ 2 → w.toNat ≠ 3 →
      step s = .next { block := { s.block with err := .illegalCmd }, port := rest, answers := .ok :: s.answers })

/-! ## VALIDATE -/

/-- R110: VALIDATE completes in every state; it writes DET, DETINV, ERR and VALID as the pseudocode says and nothing else,
and the Write of its word to CMD answers Ok. -/
def Obligations.ValidateWritesTheUnitOutputsAndTheVerdict : Prop :=
  ∀ s : State, ∃ c : Block,
    exec .validate s = .next { s with block := c } ∧
    step (s.present (cmdWrite 0x00000001#32)) = .next { s with block := c, answers := .ok :: s.answers } ∧
    (c.k11 = s.block.k11 ∧ c.k12 = s.block.k12 ∧ c.k21 = s.block.k21 ∧ c.k22 = s.block.k22 ∧
      c.v1 = s.block.v1 ∧ c.v2 = s.block.v2 ∧ c.r1 = s.block.r1 ∧ c.r2 = s.block.r2) ∧
    (c.det.toNat : Int) =
      (s.block.k11.toInt * s.block.k22.toInt - s.block.k12.toInt * s.block.k21.toInt) % 26 ∧
    (c.detinv.toNat : Int) = inv26 (c.det.toNat : Int) ∧
    (s.block.k11 = 0#32 ∧ s.block.k12 = 0#32 ∧ s.block.k21 = 0#32 ∧ s.block.k22 = 0#32 →
      c.err = .keyAllZero) ∧
    (¬ (s.block.k11 = 0#32 ∧ s.block.k12 = 0#32 ∧ s.block.k21 = 0#32 ∧ s.block.k22 = 0#32) →
      (c.det.toNat = 0 → c.err = .keySingular) ∧
      (c.det.toNat ≠ 0 → c.detinv.toNat = 0 → c.err = .keyNonInvertible) ∧
      (c.det.toNat ≠ 0 → c.detinv.toNat ≠ 0 → c.err = .ok)) ∧
    (c.valid = true ↔ c.err = .ok)

/-- R112: the outcome of VALIDATE by the greatest common divisor of the determinant and 26, and the all-zero test. -/
def Obligations.ValidateOutcomeIsDecidedByTheGcd : Prop :=
  ∀ (s : State) (d : Int),
    d = (s.block.k11.toInt * s.block.k22.toInt - s.block.k12.toInt * s.block.k21.toInt) % 26 →
    ∃ t, exec .validate s = .next t ∧
      (Int.gcd d 26 = 1 → t.block.err = .ok ∧ t.block.valid = true ∧
        (t.block.det.toNat * t.block.detinv.toNat) % 26 = 1) ∧
      (d = 0 → s.block.key ≠ ⟨0, 0, 0, 0⟩ → t.block.err = .keySingular ∧ t.block.valid = false) ∧
      (s.block.key = ⟨0, 0, 0, 0⟩ → t.block.err = .keyAllZero ∧ t.block.valid = false) ∧
      (d ≠ 0 → (Int.gcd d 26 = 2 ∨ Int.gcd d 26 = 13) →
        t.block.err = .keyNonInvertible ∧ t.block.valid = false) ∧
      (Int.gcd d 26 = 1 ∨ d = 0 ∨ Int.gcd d 26 = 2 ∨ Int.gcd d 26 = 13)

/-- R110: VALIDATE reads the key registers and no other state, so what it writes is the same whatever ran before it. -/
def Obligations.ValidateReadsOnlyTheKey : Prop :=
  ∀ s s' : State,
    s.block.k11 = s'.block.k11 → s.block.k12 = s'.block.k12 →
    s.block.k21 = s'.block.k21 → s.block.k22 = s'.block.k22 →
    ∃ t t', exec .validate s = .next t ∧ exec .validate s' = .next t' ∧
      t.block.det = t'.block.det ∧ t.block.detinv = t'.block.detinv ∧
      t.block.err = t'.block.err ∧ t.block.valid = t'.block.valid

/-! ## ENC and DEC -/

/-- R120: ENC in every state: NO_KEY, then BAD_SYMBOL, each changing ERR alone; otherwise the key matrix times the pair,
with R1, R2 and ERR the only elements written; the Write of its word to CMD answers Ok. -/
def Obligations.EncMultipliesThePairByTheKey : Prop :=
  ∀ s : State, ∃ c : Block,
    exec .enc s = .next { s with block := c } ∧
    step (s.present (cmdWrite 0x00000002#32)) = .next { s with block := c, answers := .ok :: s.answers } ∧
    (s.block.valid = false → c = { s.block with err := .noKey }) ∧
    (s.block.valid = true → 25 < s.block.v1.toNat ∨ 25 < s.block.v2.toNat →
      c = { s.block with err := .badSymbol }) ∧
    (s.block.valid = true → s.block.v1.toNat ≤ 25 → s.block.v2.toNat ≤ 25 →
      c = { s.block with r1 := c.r1, r2 := c.r2, err := .ok } ∧
      (c.r1.toNat : Int) = (s.block.k11.toInt * s.block.v1.toNat + s.block.k12.toInt * s.block.v2.toNat) % 26 ∧
      (c.r2.toNat : Int) = (s.block.k21.toInt * s.block.v1.toNat + s.block.k22.toInt * s.block.v2.toNat) % 26)

/-- R121: DEC in every state: NO_KEY, then BAD_SYMBOL, each changing ERR alone; otherwise the inverse key times the pair,
the inverse key derived from K and DETINV, with R1, R2 and ERR the only elements written; the Write of its word to CMD answers Ok.
The values of R1 and R2 are stated for DETINV in 1 to 25, the domain R97 gives the inverse key and R121 says DETINV is in there. -/
def Obligations.DecMultipliesThePairByTheInverseKey : Prop :=
  ∀ s : State, ∃ c : Block,
    exec .dec s = .next { s with block := c } ∧
    step (s.present (cmdWrite 0x00000003#32)) = .next { s with block := c, answers := .ok :: s.answers } ∧
    (s.block.valid = false → c = { s.block with err := .noKey }) ∧
    (s.block.valid = true → 25 < s.block.v1.toNat ∨ 25 < s.block.v2.toNat →
      c = { s.block with err := .badSymbol }) ∧
    (s.block.valid = true → s.block.v1.toNat ≤ 25 → s.block.v2.toNat ≤ 25 →
      c = { s.block with r1 := c.r1, r2 := c.r2, err := .ok } ∧
      (1 ≤ s.block.detinv.toNat → s.block.detinv.toNat ≤ 25 →
        (c.r1.toNat : Int) =
          ((s.block.detinv.toNat * s.block.k22.toInt) % 26 * s.block.v1.toNat +
            (s.block.detinv.toNat * -s.block.k12.toInt) % 26 * s.block.v2.toNat) % 26 ∧
        (c.r2.toNat : Int) =
          ((s.block.detinv.toNat * -s.block.k21.toInt) % 26 * s.block.v1.toNat +
            (s.block.detinv.toNat * s.block.k11.toInt) % 26 * s.block.v2.toNat) % 26))

/-- R113: ENC and DEC are gated alike: in every state both end with the same code, so no key encrypts that DEC would refuse. -/
def Obligations.OneValidationServesBothDirections : Prop :=
  ∀ s : State, ∃ t u, exec .enc s = .next t ∧ exec .dec s = .next u ∧ t.block.err = u.block.err

/-- The frame of the three commands, by element and by register of the map: the key and VIN never change,
VALIDATE leaves R1 and R2, ENC and DEC leave DET, DETINV and VALID, and R1 and R2 too when they fail;
every register reads as before but STATUS, and for VALIDATE also DET, DETINV and IKEY, and for ENC and DEC also VOUT. -/
def Obligations.CommandsLeaveTheOtherElements : Prop :=
  ∀ (i : Instr) (s : State), ∃ t, exec i s = .next t ∧
    t.port = s.port ∧ t.answers = s.answers ∧
    (t.block.k11 = s.block.k11 ∧ t.block.k12 = s.block.k12 ∧ t.block.k21 = s.block.k21 ∧
      t.block.k22 = s.block.k22 ∧ t.block.v1 = s.block.v1 ∧ t.block.v2 = s.block.v2) ∧
    (i = .validate → t.block.r1 = s.block.r1 ∧ t.block.r2 = s.block.r2) ∧
    (i = .enc ∨ i = .dec →
      t.block.det = s.block.det ∧ t.block.detinv = s.block.detinv ∧ t.block.valid = s.block.valid ∧
      (t.block.err ≠ .ok → t.block.r1 = s.block.r1 ∧ t.block.r2 = s.block.r2)) ∧
    (∀ r : Reg, r ≠ .status →
      (i = .validate → r ≠ .det → r ≠ .detinv → r ≠ .ikey → readReg r t.block = readReg r s.block) ∧
      (i = .enc ∨ i = .dec → r ≠ .vout → readReg r t.block = readReg r s.block))

/-- Issued again on the state it left, each command leaves that state as it is: VALIDATE twice on one key gives the same state (R111);
ENC and DEC change none of the registers they read, V1 and V2 among them (R24, R120, R121), so each gives the same result; and a failed
command fails alike (R157). R52's sentence that a Write to CMD is not idempotent in general stands beside this: it speaks of what a command
does to a state it did not itself leave. -/
def Obligations.ReissuedCommandsChangeNothing : Prop :=
  ∀ (i : Instr) (s : State), ∃ t, exec i s = .next t ∧ exec i t = .next t

/-- R124: in a state with VALID = 1 and two symbols, ENC then DEC through VOUT and VIN gives the pair back, and so does DEC then ENC.
The premise Inv rules out states no run reaches (VALID = 1 beside a DETINV that is no inverse); StepKeepsTheInvariant states it. -/
def Obligations.RoundTripOnTheRegisters : Prop :=
  ∀ (s : State) (a b : Symbol) (i j : Instr),
    s.block.Inv → s.block.valid = true → a.toNat ≤ 25 → b.toNat ≤ 25 →
    (i = .enc ∧ j = .dec) ∨ (i = .dec ∧ j = .enc) →
    ∃ (u t : State) (w : Word),
      runScript (setv a.toNat b.toNat ++ [.cmd i, .rd (.reg .vout)]) s = .next u ∧
      u.answers.head? = some (.okWord w) ∧
      runScript [.wr (.reg .vin) (.word w), .cmd j] u = .next t ∧
      t.block.r1 = a ∧ t.block.r2 = b ∧ t.block.err = .ok

/-! ## The arithmetic units -/

/-- R90: floormod is `x - m * floor(x / m)`, the one remainder from 0 to `m - 1`, equal to the document's formula on the
truncating remainder, with the rule's corner cases. -/
def Obligations.FloormodIsTheNonNegativeRemainder : Prop :=
  (∀ x m : Int, 0 < m →
    floormod x m = x - m * ⌊(x : ℚ) / (m : ℚ)⌋ ∧
    (0 ≤ floormod x m ∧ floormod x m < m ∧ m ∣ x - floormod x m) ∧
    (∀ r : Int, 0 ≤ r → r < m → m ∣ x - r → r = floormod x m) ∧
    floormod x m = Int.tmod (Int.tmod x m + m) m) ∧
  (floormod 0 26 = 0 ∧ floormod 26 26 = 0 ∧ floormod (-26) 26 = 0 ∧ floormod (-1) 26 = 25 ∧
    floormod (-9) 26 = 17 ∧ floormod (-6) 26 = 20 ∧ floormod (-121) 26 = 9 ∧ floormod 27 26 = 1 ∧
    floormod 676 26 = 0)

/-- R91: the arithmetic is exact and only residues modulo 26 matter: keys with equal residues give equal results in every unit,
reducing first gives the same result, and the determinant of 32-bit entries stays within 2^63.
The clause on invkey26 is R97's for di in 1 to 25; for any other di it speaks of the model's choice (log entry 21). -/
def Obligations.OnlyResiduesMatterToTheUnits : Prop :=
  (∀ a b c : Int, floormod (a * b + c) 26 = floormod (floormod a 26 * floormod b 26 + floormod c 26) 26) ∧
  (∀ (k k' : Matrix2), k.m11 % 26 = k'.m11 % 26 → k.m12 % 26 = k'.m12 % 26 →
      k.m21 % 26 = k'.m21 % 26 → k.m22 % 26 = k'.m22 % 26 →
    det26 k = det26 k' ∧ (∀ di, invkey26 k di = invkey26 k' di) ∧
    (∀ v1 v2, mvm26 k v1 v2 = mvm26 k' v1 v2)) ∧
  (∀ a b c d : Word,
    -2 ^ 63 ≤ sint32 a * sint32 d - sint32 b * sint32 c ∧ sint32 a * sint32 d - sint32 b * sint32 c ≤ 2 ^ 63)

/-- R94 and R95: the result of the INV unit for each determinant: in 0 to 25, an inverse exactly when the gcd with 26 is 1,
the only inverse in 1 to 25, its own inverse's inverse, and the rule's table. -/
def Obligations.InvUnitFindsTheUniqueInverse : Prop :=
  (∀ d : Int, 0 ≤ d → d ≤ 25 →
    (0 ≤ inv26 d ∧ inv26 d ≤ 25) ∧
    (inv26 d ≠ 0 ↔ Int.gcd d 26 = 1) ∧
    (inv26 d = 0 ↔ ∀ x : Int, 1 ≤ x → x ≤ 25 → (d * x) % 26 ≠ 1) ∧
    (inv26 d ≠ 0 → (d * inv26 d) % 26 = 1 ∧ inv26 (inv26 d) = d ∧
      ∀ x : Int, 1 ≤ x → x ≤ 25 → (d * x) % 26 = 1 → x = inv26 d) ∧
    (d ≠ 0 → inv26 d = 0 → Int.gcd d 26 = 2 ∨ Int.gcd d 26 = 13)) ∧
  (List.range 26).map (fun d => inv26 (d : Int)) =
    [0, 1, 0, 9, 0, 21, 0, 15, 0, 3, 0, 19, 0, 0, 0, 7, 0, 23, 0, 11, 0, 5, 0, 17, 0, 25]

/-- R98: the INV unit built as an extended Euclid gives exactly `inv26(d)` for all 26 determinants. -/
def Obligations.ExtendedEuclidEqualsTheSearch : Prop :=
  ∀ d : Int, 0 ≤ d → d ≤ 25 → inv26Euclid d = inv26 d

/-- R92, R96 and R97: the DET unit, the MVM unit and, for di in 1 to 25, the inverse-key derivation as integer formulas reduced into 0 to 25, with the
corner cases of R96 that hold for every matrix or every pair. -/
def Obligations.UnitsComputeTheReducedFormulas : Prop :=
  (∀ a b c d : Int, det26 ⟨a, b, c, d⟩ = (a * d - b * c) % 26 ∧
    0 ≤ det26 ⟨a, b, c, d⟩ ∧ det26 ⟨a, b, c, d⟩ ≤ 25) ∧
  (∀ a b c d v1 v2 : Int,
    mvm26 ⟨a, b, c, d⟩ v1 v2 = ((a * v1 + b * v2) % 26, (c * v1 + d * v2) % 26)) ∧
  (∀ m : Matrix2, mvm26 m 0 0 = (0, 0)) ∧
  (∀ v1 v2 : Int, 0 ≤ v1 → v1 ≤ 25 → 0 ≤ v2 → v2 ≤ 25 → mvm26 ⟨1, 0, 0, 1⟩ v1 v2 = (v1, v2)) ∧
  (∀ a b c d di : Int, 1 ≤ di → di ≤ 25 →
    invkey26 ⟨a, b, c, d⟩ di = ⟨(di * d) % 26, (di * -b) % 26, (di * -c) % 26, (di * a) % 26⟩) ∧
  det26 ⟨3, 3, 2, 5⟩ = 9 ∧ mvm26 ⟨3, 3, 2, 5⟩ 7 4 = (7, 8) ∧ mvm26 ⟨-3, -2, 5, 1⟩ 7 4 = (23, 13) ∧
  mvm26 ⟨-1, 0, 0, -1⟩ 1 25 = (25, 1) ∧
  invkey26 ⟨3, 3, 2, 5⟩ 3 = ⟨15, 17, 20, 9⟩ ∧ invkey26 ⟨-3, -2, 5, 1⟩ 15 = ⟨15, 4, 3, 7⟩ ∧
  invkey26 ⟨5, 8, 17, 3⟩ 3 = ⟨9, 2, 1, 15⟩ ∧ invkey26 ⟨0, 1, 1, 0⟩ 25 = ⟨0, 1, 1, 0⟩ ∧
  invkey26 ⟨-2147483648, 1, -1, -2147483648⟩ 21 = ⟨16, 5, 21, 16⟩

/-- R99: for every key whose determinant has an inverse, the inverse key undoes the key on every pair of symbols, and the key undoes the inverse key. -/
def Obligations.InverseKeyUndoesTheKey : Prop :=
  ∀ (k : Matrix2) (v1 v2 : Int), inv26 (det26 k) ≠ 0 →
    0 ≤ v1 → v1 ≤ 25 → 0 ≤ v2 → v2 ≤ 25 →
    mvm26 (invkey26 k (inv26 (det26 k))) (mvm26 k v1 v2).1 (mvm26 k v1 v2).2 = (v1, v2) ∧
    mvm26 k (mvm26 (invkey26 k (inv26 (det26 k))) v1 v2).1
      (mvm26 (invkey26 k (inv26 (det26 k))) v1 v2).2 = (v1, v2)

/-- R100: a key whose determinant has gcd 1 with 26 has an inverse of its determinant, and is not the all-zero key. -/
def Obligations.KeysWithGcdOneHaveAnInverse : Prop :=
  ∀ a b c d : Int, Int.gcd ((a * d - b * c) % 26) 26 = 1 →
    inv26 (det26 ⟨a, b, c, d⟩) ≠ 0 ∧
    floormod (det26 ⟨a, b, c, d⟩ * inv26 (det26 ⟨a, b, c, d⟩)) 26 = 1 ∧
    ¬ (a = 0 ∧ b = 0 ∧ c = 0 ∧ d = 0)

/-! ## The invariant -/

/-- The reset state meets the invariant of R30. -/
def Obligations.ResetMeetsTheInvariant : Prop :=
  State.reset.block.Inv

/-- R30: every step keeps the invariant, from every state that meets it, whatever the host delivers. -/
def Obligations.StepKeepsTheInvariant : Prop :=
  ∀ s : State, s.block.Inv → ∃ t, step s = .next t ∧ t.block.Inv

/-- R30: every sequence of events from Reset runs to its end, and the block it leaves meets the invariant: DET, DETINV, R1 and R2 in
0 to 25, and with VALID = 1 a key that is not all-zero, with DET its determinant and DETINV the inverse. -/
def Obligations.EveryReachableBlockMeetsTheInvariant : Prop :=
  ∀ es : List HostEvent, ∃ t, runEvents es State.reset = .next t ∧
    (t.block.det.toNat ≤ 25 ∧ t.block.detinv.toNat ≤ 25 ∧ t.block.r1.toNat ≤ 25 ∧ t.block.r2.toNat ≤ 25) ∧
    (t.block.valid = true →
      ¬ (t.block.k11 = 0#32 ∧ t.block.k12 = 0#32 ∧ t.block.k21 = 0#32 ∧ t.block.k22 = 0#32) ∧
      (t.block.det.toNat : Int) =
        (t.block.k11.toInt * t.block.k22.toInt - t.block.k12.toInt * t.block.k21.toInt) % 26 ∧
      t.block.det.toNat ≠ 0 ∧ 1 ≤ t.block.detinv.toNat ∧ t.block.detinv.toNat ≤ 25 ∧
      (t.block.det.toNat * t.block.detinv.toNat) % 26 = 1 ∧
      Nat.gcd t.block.det.toNat 26 = 1)

/-- R152: the block never writes code 4 into ERR. -/
def Obligations.BlockNeverReportsEmptyInput : Prop :=
  (∀ s : State, s.block.err ≠ .emptyInput → ∃ t, step s = .next t ∧ t.block.err ≠ .emptyInput) ∧
  (∀ es : List HostEvent, ∃ t, runEvents es State.reset = .next t ∧ t.block.err ≠ .emptyInput)

/-! ## Transactions -/

/-- R179: every step of every state is a next state; the step takes one event from the port, and a Read or Write adds one response.
The last clause, that a step with nothing at the port changes nothing, is the model's choice (log entry 3). -/
def Obligations.EveryStepGoesOn : Prop :=
  ∀ s : State, ∃ t, step s = .next t ∧ t.port = s.port.tail ∧
    (∀ e rest, s.port = e :: rest → e.answered = true → ∃ r, t.answers = r :: s.answers) ∧
    (∀ rest, s.port = .reset :: rest → t.answers = s.answers) ∧
    (s.port = [] → t = s)

/-- R53: the transactions that answer BusError are those at an offset that is no multiple of 4, at 0x2C to 0x3F, a Write to a
read-only register, a Read of CMD, and those not 32 bits wide or with a byte lane disabled; they change no state at all,
and every other transaction is answered otherwise. -/
def Obligations.UnsupportedAccessesAnswerBusError : Prop :=
  ∀ (s : State) (off : Offset) (bytes : Nat) (lanes : BitVec 4) (w : Word),
    (off.toNat % 4 ≠ 0 ∨ 0x2C ≤ off.toNat ∨ off.toNat = 0x14 ∨ bytes ≠ 4 →
      step (s.present (.read off bytes)) = .next { s with answers := .busError :: s.answers }) ∧
    (¬ (off.toNat % 4 ≠ 0 ∨ 0x2C ≤ off.toNat ∨ off.toNat = 0x14 ∨ bytes ≠ 4) →
      ∃ v, step (s.present (.read off bytes)) = .next { s with answers := .okWord v :: s.answers }) ∧
    (off.toNat % 4 ≠ 0 ∨ 0x18 ≤ off.toNat ∨ bytes ≠ 4 ∨ lanes ≠ 0xF#4 →
      step (s.present (.write off bytes lanes w)) = .next { s with answers := .busError :: s.answers }) ∧
    (¬ (off.toNat % 4 ≠ 0 ∨ 0x18 ≤ off.toNat ∨ bytes ≠ 4 ∨ lanes ≠ 0xF#4) →
      ∃ t, step (s.present (.write off bytes lanes w)) = .next t ∧ t.answers = .ok :: s.answers)

/-- The ranges of WellFormed.lean and the register map of the machine agree: a transaction is answered BusError exactly when it is not well formed. -/
def Obligations.WellFormedTransactionsAreTheAnsweredOnes : Prop :=
  ∀ (s : State) (e : HostEvent), e.answered = true →
    ∃ t r, step (s.present e) = .next t ∧ t.answers = r :: s.answers ∧
      (r = .busError ↔ e.wellFormed = false)

/-- R51: a Read of each readable register answers the read column of the map, laid out as R31, R32 and R74 to R78 say, and changes no state.
The word IKEY reads with VALID = 1 is stated for DETINV in 1 to 25, the domain R97 gives the inverse key; every run from Reset keeps to it (R30). -/
def Obligations.ReadsReturnTheMapAndChangeNothing : Prop :=
  ∀ s : State,
    let read (off : Offset) (w : Word) : Prop :=
      step (s.present (.read off 4)) = .next { s with answers := .okWord w :: s.answers }
    read 0x00#6 s.block.k11 ∧ read 0x04#6 s.block.k12 ∧ read 0x08#6 s.block.k21 ∧ read 0x0C#6 s.block.k22 ∧
    (∃ w, read 0x10#6 w ∧ w.toNat = s.block.v1.toNat + 2 ^ 8 * s.block.v2.toNat) ∧
    (∃ w, read 0x18#6 w ∧
      w.toNat = (if s.block.valid then 1 else 0) + 2 ^ 4 * s.block.err.bits.toNat) ∧
    (∃ w, read 0x1C#6 w ∧ w.toNat = s.block.det.toNat) ∧
    (∃ w, read 0x20#6 w ∧ w.toNat = s.block.detinv.toNat) ∧
    (∃ w, read 0x24#6 w ∧
      (s.block.valid = false → w.toNat = 0) ∧
      (s.block.valid = true → 1 ≤ s.block.detinv.toNat → s.block.detinv.toNat ≤ 25 → (w.toNat : Int) =
        (s.block.detinv.toNat * s.block.k22.toInt) % 26 +
        2 ^ 8 * ((s.block.detinv.toNat * -s.block.k12.toInt) % 26) +
        2 ^ 16 * ((s.block.detinv.toNat * -s.block.k21.toInt) % 26) +
        2 ^ 24 * ((s.block.detinv.toNat * s.block.k11.toInt) % 26))) ∧
    (∃ w, read 0x28#6 w ∧ w.toNat = s.block.r1.toNat + 2 ^ 8 * s.block.r2.toNat)

/-- R150: the numbers of the eight error codes. -/
def Obligations.ErrorCodesHaveTheirNumbers : Prop :=
  (ErrCode.bits .ok).toNat = 0 ∧ (ErrCode.bits .keyAllZero).toNat = 1 ∧ (ErrCode.bits .keySingular).toNat = 2 ∧
  (ErrCode.bits .keyNonInvertible).toNat = 3 ∧ (ErrCode.bits .emptyInput).toNat = 4 ∧
  (ErrCode.bits .noKey).toNat = 5 ∧ (ErrCode.bits .badSymbol).toNat = 6 ∧ (ErrCode.bits .illegalCmd).toNat = 7

/-- R22: a Write to a key register stores the word and clears VALID, whatever the word, and changes nothing else; a Read of it
returns the stored word; no command writes a key register. -/
def Obligations.KeyWritesStoreAndClearValid : Prop :=
  ∀ (s : State) (w : Word),
    (step (s.present (.write 0x00#6 4 0xF#4 w)) =
      .next { s with block := { s.block with k11 := w, valid := false }, answers := .ok :: s.answers }) ∧
    (step (s.present (.write 0x04#6 4 0xF#4 w)) =
      .next { s with block := { s.block with k12 := w, valid := false }, answers := .ok :: s.answers }) ∧
    (step (s.present (.write 0x08#6 4 0xF#4 w)) =
      .next { s with block := { s.block with k21 := w, valid := false }, answers := .ok :: s.answers }) ∧
    (step (s.present (.write 0x0C#6 4 0xF#4 w)) =
      .next { s with block := { s.block with k22 := w, valid := false }, answers := .ok :: s.answers }) ∧
    (step (s.present (.read 0x00#6 4)) =
      .next { s with answers := .okWord (word32 (sint32 s.block.k11)) :: s.answers }) ∧
    (step (s.present (.read 0x04#6 4)) =
      .next { s with answers := .okWord (word32 (sint32 s.block.k12)) :: s.answers }) ∧
    (step (s.present (.read 0x08#6 4)) =
      .next { s with answers := .okWord (word32 (sint32 s.block.k21)) :: s.answers }) ∧
    (step (s.present (.read 0x0C#6 4)) =
      .next { s with answers := .okWord (word32 (sint32 s.block.k22)) :: s.answers }) ∧
    (∀ i : Instr, ∃ t, exec i s = .next t ∧ t.block.k11 = s.block.k11 ∧ t.block.k12 = s.block.k12 ∧
      t.block.k21 = s.block.k21 ∧ t.block.k22 = s.block.k22)

/-- R73: a key register's word is its value in two's complement, with the rule's examples. -/
def Obligations.KeyWordsAreTwosComplement : Prop :=
  (∀ w : Word, sint32 w = if w.toNat < 2 ^ 31 then (w.toNat : Int) else w.toNat - 2 ^ 32) ∧
  (∀ w : Word, word32 (sint32 w) = w) ∧
  (∀ i : Int, -2 ^ 31 ≤ i → i < 2 ^ 31 → sint32 (word32 i) = i) ∧
  sint32 0x00000003#32 = 3 ∧ sint32 0xFFFFFFFD#32 = -3 ∧ sint32 0x0000001A#32 = 26 ∧
  sint32 0x80000000#32 = -2147483648 ∧ sint32 0x7FFFFFFF#32 = 2147483647

/-- R74: a Write of VIN stores bits 4 to 0 in V1 and bits 12 to 8 in V2, ignores the other bits and changes nothing else;
VIN then reads back with the ignored bits 0. -/
def Obligations.VinWritesStoreBothSymbols : Prop :=
  ∀ (s : State) (w : Word), ∃ a b : Symbol,
    a.toNat = w.toNat % 2 ^ 5 ∧ b.toNat = w.toNat / 2 ^ 8 % 2 ^ 5 ∧
    ∃ t, step (s.present (.write 0x10#6 4 0xF#4 w)) = .next t ∧
      t = { s with block := { s.block with v1 := a, v2 := b }, answers := .ok :: s.answers } ∧
      ∃ r, step (t.present (.read 0x10#6 4)) = .next { t with answers := .okWord r :: t.answers } ∧
        r.toNat = w.toNat % 2 ^ 5 + 2 ^ 8 * (w.toNat / 2 ^ 8 % 2 ^ 5)

/-- R78: the word VOUT reads, written back to VIN, puts the result pair into V1 and V2 unchanged. -/
def Obligations.VoutFeedsBackIntoVin : Prop :=
  ∀ s : State, ∃ (w : Word) (t : State),
    runEvents [readAt 0x28#6] s = .next t ∧ t.answers = .okWord w :: s.answers ∧
    w.toNat = s.block.r1.toNat + 2 ^ 8 * s.block.r2.toNat ∧
    ∃ u, runEvents [writeAt 0x10#6 w] t = .next u ∧
      u.block = { s.block with v1 := s.block.r1, v2 := s.block.r2 }

/-- R52: writing the same word twice to a key register or to VIN leaves the block as writing it once does. -/
def Obligations.RegisterWritesAreIdempotent : Prop :=
  ∀ (s : State) (e : HostEvent), e.writesKey = true ∨ e.writesVin = true →
    ∃ t u, runEvents [e] s = .next t ∧ runEvents [e, e] s = .next u ∧ u.block = t.block

/-- Who writes which of the twelve elements, over every event but Reset and every state (R22, R24 to R29): the key registers are changed by
key writes only, V1 and V2 by VIN writes only, DET and DETINV by VALIDATE only, R1 and R2 by an ENC or DEC that ends with ERR = 0 only,
VALID by VALIDATE and key writes only, and ERR by Writes to CMD only. -/
def Obligations.EveryElementHasItsOnlyWriters : Prop :=
  ∀ (s : State) (e : HostEvent), e ≠ .reset → ∃ t, step (s.present e) = .next t ∧
    (e.writesKey = false → t.block.k11 = s.block.k11 ∧ t.block.k12 = s.block.k12 ∧
      t.block.k21 = s.block.k21 ∧ t.block.k22 = s.block.k22) ∧
    (e.writesVin = false → t.block.v1 = s.block.v1 ∧ t.block.v2 = s.block.v2) ∧
    (e ≠ cmdWrite 1#32 → t.block.det = s.block.det ∧ t.block.detinv = s.block.detinv) ∧
    ((e ≠ cmdWrite 2#32 ∧ e ≠ cmdWrite 3#32) ∨ t.block.err ≠ .ok →
      t.block.r1 = s.block.r1 ∧ t.block.r2 = s.block.r2) ∧
    (e ≠ cmdWrite 1#32 → e.writesKey = false → t.block.valid = s.block.valid) ∧
    (e.writesCmd = false → t.block.err = s.block.err)

/-- R28: a step sets VALID to 1 only when it is a VALIDATE that finds no error, and clears it only when it is a VALIDATE that finds an error,
a key write, or the Reset event; a key write and a failing VALIDATE do leave it 0. -/
def Obligations.ValidChangesOnlyAsItsRuleSays : Prop :=
  ∀ (s : State) (e : HostEvent), ∃ t, step (s.present e) = .next t ∧
    (s.block.valid = false → t.block.valid = true → e = cmdWrite 1#32 ∧ t.block.err = .ok) ∧
    (s.block.valid = true → t.block.valid = false →
      (e = cmdWrite 1#32 ∧ t.block.err ≠ .ok) ∨ e.writesKey = true ∨ e = .reset) ∧
    (e = cmdWrite 1#32 → (t.block.valid = true ↔ t.block.err = .ok)) ∧
    (e.writesKey = true → t.block.valid = false)

/-- R175: after a key write, and whatever follows it short of a VALIDATE, ENC and DEC end with NO_KEY and change nothing else. -/
def Obligations.NoResultBeforeTheNewKeyIsValidated : Prop :=
  ∀ (s : State) (e : HostEvent) (es : List HostEvent) (i : Instr),
    e.writesKey = true → (∀ x ∈ es, x ≠ cmdWrite 1#32) → i = .enc ∨ i = .dec →
    ∃ u t, runEvents (e :: es) s = .next u ∧ runEvents [cmdWrite (encode i)] u = .next t ∧
      t.block = { u.block with err := .noKey }

/-- R23: while VALID = 1 the key, DET and DETINV are those the last VALIDATE saw and computed: over any events without a VALIDATE that end
with VALID = 1, VALID was 1 throughout and the six values are the same. -/
def Obligations.TheValidKeyIsTheOneLastValidated : Prop :=
  ∀ (s : State) (es : List HostEvent), (∀ x ∈ es, x ≠ cmdWrite 1#32) →
    ∃ u, runEvents es s = .next u ∧
      (u.block.valid = true → s.block.valid = true ∧
        u.block.k11 = s.block.k11 ∧ u.block.k12 = s.block.k12 ∧ u.block.k21 = s.block.k21 ∧
        u.block.k22 = s.block.k22 ∧ u.block.det = s.block.det ∧ u.block.detinv = s.block.detinv)

/-- R60: a stream delivered at once is answered as its transactions delivered one at a time are: in order, each on the state the one before it left. -/
def Obligations.StreamsAreServedInDeliveryOrder : Prop :=
  ∀ (es : List HostEvent) (s : State), s.port = [] →
    ∃ t, runEvents es s = .next t ∧ t.port = [] ∧
      Host.Core.run Sys2Proof.core es.length { s with port := es } = .next t

/-- R60: a step sees none of the later transactions: the block and the response are the same whatever waits behind the event. -/
def Obligations.LaterTransactionsAreNotSeen : Prop :=
  ∀ (s : State) (e : HostEvent) (p q : List HostEvent),
    ∃ t, step { s with port := e :: p } = .next t ∧ step { s with port := e :: q } = .next { t with port := q }

/-! ## Reset -/

/-- The Reset event sets every element of the block to 0 (R170) and answers nothing (R50); State.reset holds the same block.
That the host's two lists, port and answers, stay as they are is the model's choice (log entry 18): they are no state of the block. -/
def Obligations.ResetZeroesTheTwelveElements : Prop :=
  (∀ (s : State) (rest : List HostEvent), s.port = .reset :: rest →
    step s = .next
      { block := { k11 := 0#32, k12 := 0#32, k21 := 0#32, k22 := 0#32, v1 := 0#5, v2 := 0#5, det := 0#5,
                   detinv := 0#5, r1 := 0#5, r2 := 0#5, valid := false, err := .ok },
        port := rest, answers := s.answers }) ∧
  (∀ s : State, ∃ t, step (s.present .reset) = .next t ∧ t.block = State.reset.block)

/-- R171: what the host reads right after Reset, and what the three commands end with there. -/
def Obligations.FirstReadsAfterResetAreZero : Prop :=
  ∀ s : State, s.block = State.reset.block →
    (∀ off : Offset, off.toNat % 4 = 0 → off.toNat < 0x2C → off.toNat ≠ 0x14 →
      step (s.present (.read off 4)) = .next { s with answers := .okWord 0#32 :: s.answers }) ∧
    step (s.present (.read 0x14#6 4)) = .next { s with answers := .busError :: s.answers } ∧
    (∃ t, exec .validate s = .next t ∧ t.block.err = .keyAllZero ∧ t.block.valid = false) ∧
    (∃ t, exec .enc s = .next t ∧ t.block.err = .noKey) ∧
    (∃ t, exec .dec s = .next t ∧ t.block.err = .noKey)

/-! ## Around the block -/

/-- R82: the four writes of setkey may come in any order: the final block is the same, with the four words stored and VALID = 0.
For an integer outside the signed 32-bit range the word stored is the model's choice (log entry 20). -/
def Obligations.SetkeyOrderDoesNotMatter : Prop :=
  ∀ (a b c d : Int) (ls : List ScriptLine) (s : State), ls.Perm (setkey a b c d) →
    ∃ t, runScript ls s = .next t ∧
      t.block = { s.block with k11 := word32 a, k12 := word32 b, k21 := word32 c, k22 := word32 d, valid := false }

/-- The addresses BASE to BASE + 0x3F are the block's offsets, each once, and no other address is (R7, R54, R56), for every value of BASE. -/
def Obligations.PlatformAddressesSelectTheOffsets : Prop :=
  (∀ off : Offset, offsetOf (platformAddress off) = some off) ∧
  (∀ (addr : Nat) (off : Offset), offsetOf addr = some off → addr = platformAddress off) ∧
  (∀ addr : Nat, offsetOf addr = none ↔ addr < Config.BASE ∨ Config.BASE + 64 ≤ addr)

/-- R163: a step of one instance is its own step alone: every other instance stays as it was. The list of instances is the model's form (log entry 17). -/
def Obligations.InstancesShareNothing : Prop :=
  ∀ (n : Nat) (p : Instances) (s : State), p[n]? = some s →
    ∃ p' t, stepInstance n p = .next p' ∧ step s = .next t ∧ p'[n]? = some t ∧
      ∀ m : Nat, m ≠ n → p'[m]? = p[m]?

/-! ## The host contract -/

/-- A missing or unparsable field is 0 under default_to_zero and an unparsable one an error under reject (R131); a field that parses is its
integer under both; the key takes its four fields in the order k11, k12, k21, k22, and under reject one bad field refuses the key.
That a missing field is an error too under reject is the model's choice (log entry 15), and so is the error's name (log entry 19). -/
def Obligations.KeyFieldsFollowTheParsePolicy : Prop :=
  (∀ f : Text,
    match Config.parseInteger f with
    | some i => parseKeyField .defaultToZero (some f) = .ok i ∧ parseKeyField .reject (some f) = .ok i
    | none => parseKeyField .defaultToZero (some f) = .ok 0 ∧
        parseKeyField .reject (some f) = .error .unparsableField) ∧
  parseKeyField .defaultToZero none = .ok 0 ∧ parseKeyField .reject none = .error .unparsableField ∧
  (∀ f11 f12 f21 f22 : Option Text,
    parseKey .defaultToZero f11 f12 f21 f22 = .ok
      { m11 := (f11.bind Config.parseInteger).getD 0, m12 := (f12.bind Config.parseInteger).getD 0,
        m21 := (f21.bind Config.parseInteger).getD 0, m22 := (f22.bind Config.parseInteger).getD 0 } ∧
    parseKey .reject f11 f12 f21 f22 =
      match f11.bind Config.parseInteger, f12.bind Config.parseInteger,
        f21.bind Config.parseInteger, f22.bind Config.parseInteger with
      | some a, some b, some c, some d => .ok { m11 := a, m12 := b, m21 := c, m22 := d }
      | _, _, _, _ => .error .unparsableField)

/-- R132: a key integer outside -2147483648 to 2147483647 is refused by the host, no transaction is issued and the machine is as it was. -/
def Obligations.OutOfRangeKeysAreRefused : Prop :=
  ∀ (k : Matrix2) (text : Text) (s : State) (x : Int),
    x = k.m11 ∨ x = k.m12 ∨ x = k.m21 ∨ x = k.m22 → x < -2147483648 ∨ 2147483647 < x →
    validateKey k s = .next (.error .keyOutOfRange, s) ∧
    encrypt k text s = .next (.error .keyOutOfRange, s) ∧
    decrypt k text s = .next (.error .keyOutOfRange, s)

/-- R133 and R134: the validateKey call on a key in range: InvalidKey with the reason of the first failing check, or the record of the matrix,
the determinant and its inverse; the key is left loaded. -/
def Obligations.ValidateKeyReturnsTheFirstFailingReason : Prop :=
  ∀ (k : Matrix2) (s : State), keyInRange k = true →
    ∃ r t, validateKey k s = .next (r, t) ∧ t.block.key = k ∧
      (k = ⟨0, 0, 0, 0⟩ → r = .error (.invalidKey .allZero)) ∧
      (k ≠ ⟨0, 0, 0, 0⟩ → det26 k = 0 → r = .error (.invalidKey .singular)) ∧
      (k ≠ ⟨0, 0, 0, 0⟩ → det26 k ≠ 0 → Int.gcd (det26 k) 26 ≠ 1 → r = .error (.invalidKey .nonInvertible)) ∧
      (Int.gcd (det26 k) 26 = 1 →
        r = .ok { matrix := k, det := det26 k, detInv := inv26 (det26 k) } ∧ t.block.valid = true)

/-- R135 to R137: normalize keeps the 52 unaccented Latin letters in order as numbers 0 to 25, drops every other character, appends 23 to an odd
count, and is EmptyInput when no letter is left; its result has even length of at least 2 and elements in 0 to 25.
That the letters are the code points 65 to 90 and 97 to 122 is presumed (log entry 14; R136 marks 65 to 90 as general knowledge). -/
def Obligations.NormalizeKeepsTheLettersAndPads : Prop :=
  ∀ (text : Text) (s : List Nat),
    s = text.filterMap (fun c =>
      if 65 ≤ c.toNat ∧ c.toNat ≤ 90 then some (c.toNat - 65)
      else if 97 ≤ c.toNat ∧ c.toNat ≤ 122 then some (c.toNat - 97) else none) →
    (s = [] → normalizeText text = .error .emptyInput) ∧
    (s ≠ [] → s.length % 2 = 0 → normalizeText text = .ok s) ∧
    (s.length % 2 = 1 → normalizeText text = .ok (s ++ [23])) ∧
    (∀ r, normalizeText text = .ok r → r.length % 2 = 0 ∧ 2 ≤ r.length ∧ ∀ x ∈ r, x ≤ 25)

/-- R142 (b): normalizing the letters of a normalized text gives the same symbols. -/
def Obligations.NormalizeIsIdempotent : Prop :=
  ∀ (text : Text) (r : List Nat), normalizeText text = .ok r → normalizeText (letters r) = .ok r

/-- R142 (c): a letter-only text of odd length N gives a sequence of length N + 1 whose last element is 23. -/
def Obligations.OddTextsArePaddedWithX : Prop :=
  ∀ text : Text, (∀ c ∈ text, ('A' ≤ c ∧ c ≤ 'Z') ∨ ('a' ≤ c ∧ c ≤ 'z')) → text.length % 2 = 1 →
    ∃ r, normalizeText text = .ok r ∧ r.length = text.length + 1 ∧ r.getLast? = some 23

/-- R140 and R125: for a key that validates, encrypt and decrypt of a text with letters return one letter of 'A' to 'Z' per padded symbol,
and of a text without letters return EmptyInput. -/
def Obligations.TextResultsHaveThePaddedLength : Prop :=
  ∀ (k : Matrix2) (text : Text) (s : State), keyInRange k = true → Int.gcd (det26 k) 26 = 1 →
    (∀ sym, normalizeText text = .ok sym →
      (∃ c t, encrypt k text s = .next (.ok c, t) ∧ c.length = sym.length ∧ ∀ x ∈ c, 'A' ≤ x ∧ x ≤ 'Z') ∧
      (∃ c t, decrypt k text s = .next (.ok c, t) ∧ c.length = sym.length ∧ ∀ x ∈ c, 'A' ≤ x ∧ x ≤ 'Z')) ∧
    (normalizeText text = .error .emptyInput →
      (∃ t, encrypt k text s = .next (.error .emptyInput, t)) ∧
      (∃ t, decrypt k text s = .next (.error .emptyInput, t)))

/-- R142 (a): for every key that validates and every text with letters, decrypting the encryption gives back the letters of the text,
followed by the padding 'X' when their count is odd, whatever the block held before either call. -/
def Obligations.DecryptUndoesEncrypt : Prop :=
  ∀ (k : Matrix2) (text : Text) (sym : List Nat) (s s' : State),
    keyInRange k = true → Int.gcd (det26 k) 26 = 1 → normalizeText text = .ok sym →
    ∃ c t t', encrypt k text s = .next (.ok c, t) ∧ decrypt k c s' = .next (.ok (letters sym), t')

/-- R143: the result of each host call depends only on the key integers and the text, not on what the block held before. -/
def Obligations.HostCallsDependOnlyOnTheirArguments : Prop :=
  ∀ (k : Matrix2) (text : Text) (s s' : State),
    (∃ r t t', validateKey k s = .next (r, t) ∧ validateKey k s' = .next (r, t')) ∧
    (∃ r t t', encrypt k text s = .next (r, t) ∧ encrypt k text s' = .next (r, t')) ∧
    (∃ r t t', decrypt k text s = .next (r, t) ∧ decrypt k text s' = .next (r, t'))

/-- R139: a key error comes before an EmptyInput error: with a key that does not validate, encrypt and decrypt return validateKey's error for every text. -/
def Obligations.KeyErrorsComeFirst : Prop :=
  ∀ (k : Matrix2) (text : Text) (s : State) (e : HostError) (t : State),
    validateKey k s = .next (.error e, t) →
    encrypt k text s = .next (.error e, t) ∧ decrypt k text s = .next (.error e, t)

/-- R134: a host that follows the contract sees no BusError and no code above 3, and never an internal error. -/
def Obligations.HostCallsSeeNoInternalError : Prop :=
  ∀ (k : Matrix2) (text : Text) (s : State) (i : Instr), i = .enc ∨ i = .dec →
    ∃ r t new, callWithKey i k text s = .next (r, t) ∧ r ≠ .error .internal ∧
      t.answers = new ++ s.answers ∧ HostResponse.busError ∉ new ∧
      (keyInRange k = true →
        t.block.err = .ok ∨ t.block.err = .keyAllZero ∨ t.block.err = .keySingular ∨ t.block.err = .keyNonInvertible)

/-- R140 and R141: for a key that validates and a text with letters, encrypt returns, pair by pair of the normalized text and in order, the letters
of the key matrix times the pair, and decrypt the letters of the inverse key times the pair. -/
def Obligations.TextResultsAreTheMatrixProducts : Prop :=
  ∀ (k : Matrix2) (text : Text) (sym : List Nat) (s : State),
    keyInRange k = true → Int.gcd (det26 k) 26 = 1 → normalizeText text = .ok sym →
    (∃ c t, encrypt k text s = .next (.ok c, t) ∧ lettersOfProducts k sym c) ∧
    (∃ c t, decrypt k text s = .next (.ok c, t) ∧ lettersOfProducts (invkey26 k (inv26 (det26 k))) sym c)
end

