-- ==== Sys2Proof/Laws/Operands.lean ====
section
/-! SUPPORT. Reading back what the operand layouts write. -/

namespace Sys2Proof.Machine

/-- A result in 0 to 31 is stored as it is. -/
theorem symbolInt_symbolOf (r : Int) (h0 : 0 ≤ r) (h1 : r < 32) : symbolInt (symbolOf r) = r := by
  simp only [symbolInt, symbolOf, BitVec.toNat_ofInt]
  omega

theorem symbolOf_toNat (r : Int) (h0 : 0 ≤ r) (h1 : r < 32) : (symbolOf r).toNat = r.toNat := by
  have := symbolInt_symbolOf r h0 h1
  simp only [symbolInt] at this
  omega

theorem symbolOf_symbolInt (v : Symbol) : symbolOf (symbolInt v) = v := by
  apply BitVec.eq_of_toNat_eq
  have := v.isLt
  rw [symbolOf_toNat _ (by simp [symbolInt]) (by simp only [symbolInt]; omega)]
  simp [symbolInt]

theorem word32_sint32 (w : Word) : word32 (sint32 w) = w := BitVec.ofInt_toInt

theorem sint32_word32 (i : Int) (h0 : -2 ^ 31 ≤ i) (h1 : i < 2 ^ 31) : sint32 (word32 i) = i := by
  rw [sint32, word32, BitVec.toInt_ofInt]
  simp only [Int.bmod_def]
  omega

theorem pairWord_toNat (a b : Symbol) : (pairWord a b).toNat = a.toNat + 256 * b.toNat := by
  have ha := a.isLt
  have hb := b.isLt
  have h : (pairWord a b).toNat = ((0#19 ++ b) ++ 0#3 ++ a : BitVec (19 + 5 + 3 + 5)).toNat := rfl
  rw [h, BitVec.toNat_append, BitVec.toNat_append, BitVec.toNat_append,
    ← Nat.shiftLeft_add_eq_or_of_lt a.isLt, ← Nat.shiftLeft_add_eq_or_of_lt (0#3).isLt,
    ← Nat.shiftLeft_add_eq_or_of_lt b.isLt]
  simp only [Nat.shiftLeft_eq, BitVec.toNat_ofNat]
  omega

theorem firstOfPair_toNat (w : Word) : (firstOfPair w).toNat = w.toNat % 32 := by
  simp [firstOfPair]

theorem secondOfPair_toNat (w : Word) : (secondOfPair w).toNat = w.toNat / 256 % 32 := by
  simp [secondOfPair, Nat.shiftRight_eq_div_pow]

@[simp] theorem firstOfPair_pairWord (a b : Symbol) : firstOfPair (pairWord a b) = a := by
  apply BitVec.eq_of_toNat_eq
  have := a.isLt
  rw [firstOfPair_toNat, pairWord_toNat]
  omega

@[simp] theorem secondOfPair_pairWord (a b : Symbol) : secondOfPair (pairWord a b) = b := by
  apply BitVec.eq_of_toNat_eq
  have := a.isLt
  have := b.isLt
  rw [secondOfPair_toNat, pairWord_toNat]
  omega

/-- The host's pair word `v1 + 256 * v2` is the pair layout (R82, R140). -/
theorem ofNat_pair (a b : Symbol) : BitVec.ofNat 32 (a.toNat + 256 * b.toNat) = pairWord a b := by
  apply BitVec.eq_of_toNat_eq
  have := a.isLt
  have := b.isLt
  rw [pairWord_toNat, BitVec.toNat_ofNat]
  omega

theorem statusWord_toNat (b : Block) :
    (statusWord b).toNat = (if b.valid then 1 else 0) + 16 * b.err.bits.toNat := by
  simp only [statusWord]
  generalize b.valid = v
  generalize b.err = e
  cases v <;> cases e <;> decide

theorem statusErr_statusWord (b : Block) : statusErr (statusWord b) = b.err.bits := by
  simp only [statusWord, statusErr]
  generalize b.valid = v
  generalize b.err = e
  cases v <;> cases e <;> decide

theorem statusValid_statusWord (b : Block) : statusValid (statusWord b) = b.valid := by
  simp only [statusWord, statusValid]
  generalize b.valid = v
  generalize b.err = e
  cases v <;> cases e <;> decide

theorem errCode_bits_injective {e f : ErrCode} (h : e.bits = f.bits) : e = f := by
  cases e <;> cases f <;> first | rfl | exact absurd h (by decide)

end Sys2Proof.Machine
end

