-- ==== Sys2Proof/Laws/State.lean ====
section
/-! SUPPORT. One lemma per field per update of the block and of the machine. -/

namespace Sys2Proof.Machine

variable (s : State) (b c : Block) (e : ErrCode) (w : Word) (r : HostResponse) (ev : HostEvent) (p : List HostEvent)
variable (x : Int × Int) (d di : Int)

@[simp] theorem withBlock_block : (s.withBlock b).block = b := rfl
@[simp] theorem withBlock_port : (s.withBlock b).port = s.port := rfl
@[simp] theorem withBlock_answers : (s.withBlock b).answers = s.answers := rfl
@[simp] theorem withBlock_withBlock : (s.withBlock b).withBlock c = s.withBlock c := rfl
@[simp] theorem withBlock_same : s.withBlock s.block = s := rfl

@[simp] theorem answer_block : (s.answer r).block = s.block := rfl
@[simp] theorem answer_port : (s.answer r).port = s.port := rfl
@[simp] theorem answer_answers : (s.answer r).answers = r :: s.answers := rfl

@[simp] theorem present_block : (s.present ev).block = s.block := rfl
@[simp] theorem present_port : (s.present ev).port = ev :: s.port := rfl
@[simp] theorem present_answers : (s.present ev).answers = s.answers := rfl

@[simp] theorem withPort_block : (s.withPort p).block = s.block := rfl
@[simp] theorem withPort_port : (s.withPort p).port = p := rfl
@[simp] theorem withPort_answers : (s.withPort p).answers = s.answers := rfl
@[simp] theorem present_withPort : (s.present ev).withPort s.port = s := rfl

@[simp] theorem raise_block : (raise e s).block = s.block.setErr e := rfl
@[simp] theorem raise_port : (raise e s).port = s.port := rfl
@[simp] theorem raise_answers : (raise e s).answers = s.answers := rfl

@[simp] theorem setErr_k11 : (b.setErr e).k11 = b.k11 := rfl
@[simp] theorem setErr_k12 : (b.setErr e).k12 = b.k12 := rfl
@[simp] theorem setErr_k21 : (b.setErr e).k21 = b.k21 := rfl
@[simp] theorem setErr_k22 : (b.setErr e).k22 = b.k22 := rfl
@[simp] theorem setErr_v1 : (b.setErr e).v1 = b.v1 := rfl
@[simp] theorem setErr_v2 : (b.setErr e).v2 = b.v2 := rfl
@[simp] theorem setErr_det : (b.setErr e).det = b.det := rfl
@[simp] theorem setErr_detinv : (b.setErr e).detinv = b.detinv := rfl
@[simp] theorem setErr_r1 : (b.setErr e).r1 = b.r1 := rfl
@[simp] theorem setErr_r2 : (b.setErr e).r2 = b.r2 := rfl
@[simp] theorem setErr_valid : (b.setErr e).valid = b.valid := rfl
@[simp] theorem setErr_err : (b.setErr e).err = e := rfl
@[simp] theorem setErr_key : (b.setErr e).key = b.key := rfl

@[simp] theorem setResult_k11 : (b.setResult x).k11 = b.k11 := rfl
@[simp] theorem setResult_k12 : (b.setResult x).k12 = b.k12 := rfl
@[simp] theorem setResult_k21 : (b.setResult x).k21 = b.k21 := rfl
@[simp] theorem setResult_k22 : (b.setResult x).k22 = b.k22 := rfl
@[simp] theorem setResult_v1 : (b.setResult x).v1 = b.v1 := rfl
@[simp] theorem setResult_v2 : (b.setResult x).v2 = b.v2 := rfl
@[simp] theorem setResult_det : (b.setResult x).det = b.det := rfl
@[simp] theorem setResult_detinv : (b.setResult x).detinv = b.detinv := rfl
@[simp] theorem setResult_r1 : (b.setResult x).r1 = symbolOf x.1 := rfl
@[simp] theorem setResult_r2 : (b.setResult x).r2 = symbolOf x.2 := rfl
@[simp] theorem setResult_valid : (b.setResult x).valid = b.valid := rfl
@[simp] theorem setResult_err : (b.setResult x).err = .ok := rfl
@[simp] theorem setResult_key : (b.setResult x).key = b.key := rfl

@[simp] theorem setValidation_k11 : (b.setValidation d di e).k11 = b.k11 := rfl
@[simp] theorem setValidation_k12 : (b.setValidation d di e).k12 = b.k12 := rfl
@[simp] theorem setValidation_k21 : (b.setValidation d di e).k21 = b.k21 := rfl
@[simp] theorem setValidation_k22 : (b.setValidation d di e).k22 = b.k22 := rfl
@[simp] theorem setValidation_v1 : (b.setValidation d di e).v1 = b.v1 := rfl
@[simp] theorem setValidation_v2 : (b.setValidation d di e).v2 = b.v2 := rfl
@[simp] theorem setValidation_det : (b.setValidation d di e).det = symbolOf d := rfl
@[simp] theorem setValidation_detinv : (b.setValidation d di e).detinv = symbolOf di := rfl
@[simp] theorem setValidation_r1 : (b.setValidation d di e).r1 = b.r1 := rfl
@[simp] theorem setValidation_r2 : (b.setValidation d di e).r2 = b.r2 := rfl
@[simp] theorem setValidation_valid : (b.setValidation d di e).valid = (e == .ok) := rfl
@[simp] theorem setValidation_err : (b.setValidation d di e).err = e := rfl
@[simp] theorem setValidation_key : (b.setValidation d di e).key = b.key := rfl

@[simp] theorem setK11_k11 : (b.setK11 w).k11 = w := rfl
@[simp] theorem setK11_k12 : (b.setK11 w).k12 = b.k12 := rfl
@[simp] theorem setK11_k21 : (b.setK11 w).k21 = b.k21 := rfl
@[simp] theorem setK11_k22 : (b.setK11 w).k22 = b.k22 := rfl
@[simp] theorem setK11_valid : (b.setK11 w).valid = false := rfl
@[simp] theorem setK11_err : (b.setK11 w).err = b.err := rfl
@[simp] theorem setK12_k11 : (b.setK12 w).k11 = b.k11 := rfl
@[simp] theorem setK12_k12 : (b.setK12 w).k12 = w := rfl
@[simp] theorem setK12_k21 : (b.setK12 w).k21 = b.k21 := rfl
@[simp] theorem setK12_k22 : (b.setK12 w).k22 = b.k22 := rfl
@[simp] theorem setK12_valid : (b.setK12 w).valid = false := rfl
@[simp] theorem setK12_err : (b.setK12 w).err = b.err := rfl
@[simp] theorem setK21_k11 : (b.setK21 w).k11 = b.k11 := rfl
@[simp] theorem setK21_k12 : (b.setK21 w).k12 = b.k12 := rfl
@[simp] theorem setK21_k21 : (b.setK21 w).k21 = w := rfl
@[simp] theorem setK21_k22 : (b.setK21 w).k22 = b.k22 := rfl
@[simp] theorem setK21_valid : (b.setK21 w).valid = false := rfl
@[simp] theorem setK21_err : (b.setK21 w).err = b.err := rfl
@[simp] theorem setK22_k11 : (b.setK22 w).k11 = b.k11 := rfl
@[simp] theorem setK22_k12 : (b.setK22 w).k12 = b.k12 := rfl
@[simp] theorem setK22_k21 : (b.setK22 w).k21 = b.k21 := rfl
@[simp] theorem setK22_k22 : (b.setK22 w).k22 = w := rfl
@[simp] theorem setK22_valid : (b.setK22 w).valid = false := rfl
@[simp] theorem setK22_err : (b.setK22 w).err = b.err := rfl

@[simp] theorem setVin_v1 : (b.setVin w).v1 = firstOfPair w := rfl
@[simp] theorem setVin_v2 : (b.setVin w).v2 = secondOfPair w := rfl
@[simp] theorem setVin_det : (b.setVin w).det = b.det := rfl
@[simp] theorem setVin_detinv : (b.setVin w).detinv = b.detinv := rfl
@[simp] theorem setVin_r1 : (b.setVin w).r1 = b.r1 := rfl
@[simp] theorem setVin_r2 : (b.setVin w).r2 = b.r2 := rfl
@[simp] theorem setVin_valid : (b.setVin w).valid = b.valid := rfl
@[simp] theorem setVin_err : (b.setVin w).err = b.err := rfl
@[simp] theorem setVin_key : (b.setVin w).key = b.key := rfl

section Outcomes

variable {σ τ φ ρ : Type} (a : σ) (f : σ → Host.Outcome τ φ ρ) (q : φ) (z : ρ)

@[simp] theorem andThen_next : andThen (.next a : Host.Outcome σ φ ρ) f = f a := rfl
@[simp] theorem andThen_fault : andThen (.fault q : Host.Outcome σ φ ρ) f = .fault q := rfl
@[simp] theorem andThen_refused : andThen (.refused z : Host.Outcome σ φ ρ) f = .refused z := rfl

end Outcomes

end Sys2Proof.Machine
end

