-- ==== Sys2Proof/Laws/Units.lean ====
section
/-! SUPPORT. What each arithmetic unit computes, and the range of its result. -/

namespace Sys2Proof.Machine

/-- floormod is Lean's Euclidean remainder for a positive modulus (R90). -/
theorem floormod_eq_emod (x : Int) {m : Int} (hm : 0 < m) : floormod x m = x % m := by
  rw [floormod, Int.fdiv_eq_ediv_of_nonneg x hm.le]
  have := Int.emod_add_mul_ediv x m
  omega

theorem floormod_M (x : Int) : floormod x Config.M = x % 26 := floormod_eq_emod x (by decide)

theorem det26_eq (k : Matrix2) : det26 k = (k.m11 * k.m22 - k.m12 * k.m21) % 26 := floormod_M _

theorem mvm26_eq (m : Matrix2) (v1 v2 : Int) :
    mvm26 m v1 v2 = ((m.m11 * v1 + m.m12 * v2) % 26, (m.m21 * v1 + m.m22 * v2) % 26) := by
  simp only [mvm26, floormod_M]

theorem invkey26_eq (k : Matrix2) (di : Int) :
    invkey26 k di =
      ⟨(di * k.m22) % 26, (di * -k.m12) % 26, (di * -k.m21) % 26, (di * k.m11) % 26⟩ := by
  simp only [invkey26, floormod_M]

theorem det26_range (k : Matrix2) : 0 ≤ det26 k ∧ det26 k ≤ 25 := by
  rw [det26_eq]; omega

theorem mvm26_range (m : Matrix2) (v1 v2 : Int) :
    (0 ≤ (mvm26 m v1 v2).1 ∧ (mvm26 m v1 v2).1 ≤ 25) ∧ (0 ≤ (mvm26 m v1 v2).2 ∧ (mvm26 m v1 v2).2 ≤ 25) := by
  rw [mvm26_eq]; dsimp only; omega

/-- The table of the INV unit (R95). -/
theorem inv26_table : (List.range 26).map (fun d => inv26 (d : Int)) =
    [0, 1, 0, 9, 0, 21, 0, 15, 0, 3, 0, 19, 0, 0, 0, 7, 0, 23, 0, 11, 0, 5, 0, 17, 0, 25] := by
  decide

/-- A property of the 26 determinants holds of each if it holds of each listed one. -/
theorem forall_det {P : Int → Prop} (h : ∀ n ∈ List.range 26, P (n : Int)) (d : Int) (h0 : 0 ≤ d) (h1 : d ≤ 25) :
    P d := by
  have := h d.toNat (List.mem_range.2 (by omega))
  rwa [Int.toNat_of_nonneg h0] at this

theorem inv26_range (d : Int) (h0 : 0 ≤ d) (h1 : d ≤ 25) : 0 ≤ inv26 d ∧ inv26 d ≤ 25 :=
  forall_det (P := fun d => 0 ≤ inv26 d ∧ inv26 d ≤ 25) (by decide) d h0 h1

/-- Where the INV unit finds an inverse, the product is 1 modulo 26 (R94). -/
theorem mul_inv26 (d : Int) (h0 : 0 ≤ d) (h1 : d ≤ 25) (h : inv26 d ≠ 0) : (d * inv26 d) % 26 = 1 :=
  forall_det (P := fun d => inv26 d ≠ 0 → (d * inv26 d) % 26 = 1) (by decide) d h0 h1 h

/-- The INV unit finds an inverse exactly when the gcd with 26 is 1 (R95). -/
theorem inv26_ne_zero_iff (d : Int) (h0 : 0 ≤ d) (h1 : d ≤ 25) : inv26 d ≠ 0 ↔ Int.gcd d 26 = 1 :=
  forall_det (P := fun d => inv26 d ≠ 0 ↔ Int.gcd d 26 = 1) (by decide) d h0 h1

end Sys2Proof.Machine
end

