-- ==== Sys2Proof/Laws/Transactions.lean ====
section
/-! SUPPORT. What one command and one event do, said once as functions of the block: every command and every event answers a next state. -/

namespace Sys2Proof.Machine

/-- The block after ENC or DEC on a matrix. -/
def transformed (m : Matrix2) (b : Block) : Block :=
  if operandCheck b = .ok then b.setResult (mvm26 m (symbolInt b.v1) (symbolInt b.v2))
  else b.setErr (operandCheck b)

/-- The block after a command. -/
def commanded (i : Instr) (b : Block) : Block :=
  match i with
  | .validate => b.setValidation (det26 b.key) (inv26 (det26 b.key)) (keyCheck b.key)
  | .enc => transformed b.key b
  | .dec => transformed (invkey26 b.key (symbolInt b.detinv)) b

/-- The block after a Write of a word to CMD. -/
def afterCmdWord (w : Word) (b : Block) : Block :=
  match decode w with
  | .command i => commanded i b
  | .reserved _ => b.setErr .illegalCmd

/-- The block after an event. -/
def blockAfter (e : HostEvent) (b : Block) : Block :=
  match e with
  | .read _ _ => b
  | .write off bytes lanes w =>
    match writeTarget off bytes lanes with
    | none => b
    | some .cmd => afterCmdWord w b
    | some r => storeReg r w b
  | .reset => Block.reset

/-- The responses an event adds, one for a transaction and none for Reset. -/
def responsesTo (e : HostEvent) (b : Block) : List HostResponse :=
  match e with
  | .read off bytes => [readResponse off bytes b]
  | .write off bytes lanes _ => [if (writeTarget off bytes lanes).isSome then .ok else .busError]
  | .reset => []

/-- The machine after an event taken from outside its port. -/
def stateAfter (e : HostEvent) (s : State) : State where
  block := blockAfter e s.block
  port := s.port
  answers := responsesTo e s.block ++ s.answers

@[simp] theorem stateAfter_block (e : HostEvent) (s : State) : (stateAfter e s).block = blockAfter e s.block := rfl
@[simp] theorem stateAfter_port (e : HostEvent) (s : State) : (stateAfter e s).port = s.port := rfl
@[simp] theorem stateAfter_answers (e : HostEvent) (s : State) :
    (stateAfter e s).answers = responsesTo e s.block ++ s.answers := rfl

theorem transformPair_eq (m : Matrix2) (s : State) : transformPair m s = s.withBlock (transformed m s.block) := by
  simp only [transformPair, transformed, raise]
  split <;> rfl

/-- Every command answers a next state that differs in the block alone. -/
theorem exec_eq (i : Instr) (s : State) : exec i s = .next (s.withBlock (commanded i s.block)) := by
  cases i
  · rfl
  · exact congrArg Host.Outcome.next (transformPair_eq _ _)
  · exact congrArg Host.Outcome.next (transformPair_eq _ _)

theorem runCommand_eq (w : Word) (s : State) : runCommand w s = .next (s.withBlock (afterCmdWord w s.block)) := by
  unfold runCommand afterCmdWord
  cases decode w with
  | command i => exact exec_eq i s
  | reserved r => rfl

/-- Every event answers a next state. -/
theorem serve_eq (e : HostEvent) (s : State) : serve e s = .next (stateAfter e s) := by
  cases e with
  | read off bytes => rfl
  | write off bytes lanes w =>
    simp only [serve, serveWrite, stateAfter, blockAfter, responsesTo]
    rcases writeTarget off bytes lanes with _ | r
    · rfl
    · cases r <;> simp only [runCommand_eq, andThen_next] <;> rfl
  | reset => rfl

theorem step_cons {s : State} {e : HostEvent} {rest : List HostEvent} (h : s.port = e :: rest) :
    step s = .next (stateAfter e (s.withPort rest)) := by
  simp only [step, serveNext, h, serve_eq]

theorem step_nil {s : State} (h : s.port = []) : step s = .next s := by
  simp only [step, serveNext, h]

theorem step_present (e : HostEvent) (s : State) : step (s.present e) = .next (stateAfter e s) :=
  step_cons rfl

@[simp] theorem issue_eq (e : HostEvent) (s : State) : issue e s = .next (stateAfter e s) := step_present e s

/-- The machine after a sequence of events. -/
def stateAfterAll (es : List HostEvent) (s : State) : State := es.foldl (fun t e => stateAfter e t) s

@[simp] theorem stateAfterAll_nil (s : State) : stateAfterAll [] s = s := rfl
@[simp] theorem stateAfterAll_cons (e : HostEvent) (es : List HostEvent) (s : State) :
    stateAfterAll (e :: es) s = stateAfterAll es (stateAfter e s) := rfl

theorem runEvents_eq (es : List HostEvent) (s : State) : runEvents es s = .next (stateAfterAll es s) := by
  induction es generalizing s with
  | nil => rfl
  | cons e es ih => simp [runEvents, ih]

/-- A property every event keeps is kept by a sequence of events. -/
theorem stateAfterAll_keeps {P : Block → Prop} (es : List HostEvent)
    (h : ∀ e ∈ es, ∀ b, P b → P (blockAfter e b)) (s : State) (hs : P s.block) : P (stateAfterAll es s).block := by
  induction es generalizing s with
  | nil => exact hs
  | cons e es ih =>
    exact ih (fun x hx => h x (List.mem_cons_of_mem _ hx)) _ (h e List.mem_cons_self _ hs)

theorem regAt_offset (r : Reg) : regAt r.offset = some r := by
  cases r <;> rfl

theorem regAt_eq_some {off : Offset} {r : Reg} (h : regAt off = some r) : off = r.offset := by
  unfold regAt at h
  split at h <;> cases h
  all_goals
    rename_i hoff
    exact BitVec.eq_of_toNat_eq hoff

/-- A Write reaches a register exactly when it is a whole word with every lane enabled at the offset of a writable register. -/
theorem writeTarget_eq_some {off : Offset} {bytes : Nat} {lanes : BitVec 4} {r : Reg} :
    writeTarget off bytes lanes = some r ↔ bytes = 4 ∧ lanes = 0xF#4 ∧ off = r.offset ∧ r.writable = true := by
  constructor
  · intro h
    unfold writeTarget at h
    split at h
    · rename_i hw
      split at h
      · rename_i r' hr
        split at h
        · rename_i hwr
          cases h
          exact ⟨hw.1, hw.2, regAt_eq_some hr, hwr⟩
        · cases h
      · cases h
    · cases h
  · rintro ⟨rfl, rfl, rfl, hw⟩
    simp [writeTarget, regAt_offset, hw]

theorem writeTarget_offset {r : Reg} (h : r.writable = true) : writeTarget r.offset 4 0xF#4 = some r :=
  writeTarget_eq_some.2 ⟨rfl, rfl, rfl, h⟩

theorem decode_encode (i : Instr) : decode (encode i) = .command i := by
  cases i <;> rfl

theorem blockAfter_cmdWrite (w : Word) (b : Block) : blockAfter (cmdWrite w) b = afterCmdWord w b := rfl

theorem blockAfter_command (i : Instr) (b : Block) : blockAfter (cmdWrite (encode i)) b = commanded i b := by
  rw [blockAfter_cmdWrite, afterCmdWord, decode_encode]

end Sys2Proof.Machine
end

