-- ==== Sys2Proof/Laws/Commands.lean ====
section
/-! SUPPORT. What the key checks, the operand checks and the three commands can do, said once. -/

namespace Sys2Proof.Machine

theorem sint32_eq_zero_iff (w : Word) : sint32 w = 0 ↔ w = 0#32 := by
  constructor
  · intro h
    exact BitVec.eq_of_toInt_eq (by simpa [sint32] using h)
  · rintro rfl
    rfl

theorem key_eq_zero_iff (b : Block) :
    b.key = ⟨0, 0, 0, 0⟩ ↔ b.k11 = 0#32 ∧ b.k12 = 0#32 ∧ b.k21 = 0#32 ∧ b.k22 = 0#32 := by
  simp [Block.key, sint32_eq_zero_iff]

theorem allZero_iff (k : Matrix2) : k.allZero = true ↔ k = ⟨0, 0, 0, 0⟩ := by
  cases k
  simp [Matrix2.allZero, and_assoc]

/-- The four outcomes of the key checks, in their order (R110, R155). -/
theorem keyCheck_cases (k : Matrix2) :
    (k = ⟨0, 0, 0, 0⟩ ∧ keyCheck k = .keyAllZero) ∨
    (k ≠ ⟨0, 0, 0, 0⟩ ∧ det26 k = 0 ∧ keyCheck k = .keySingular) ∨
    (k ≠ ⟨0, 0, 0, 0⟩ ∧ det26 k ≠ 0 ∧ inv26 (det26 k) = 0 ∧ keyCheck k = .keyNonInvertible) ∨
    (k ≠ ⟨0, 0, 0, 0⟩ ∧ det26 k ≠ 0 ∧ inv26 (det26 k) ≠ 0 ∧ keyCheck k = .ok) := by
  unfold keyCheck
  by_cases h : k = ⟨0, 0, 0, 0⟩
  · left
    rw [if_pos ((allZero_iff k).2 h)]
    exact ⟨h, rfl⟩
  · have h' : ¬ k.allZero = true := fun hz => h ((allZero_iff k).1 hz)
    simp only [h, h', ne_eq, not_false_eq_true, true_and, false_and, false_or]
    by_cases h1 : det26 k = 0
    · simp [h1]
    · by_cases h2 : inv26 (det26 k) = 0 <;> simp [h1, h2]

/-- The three outcomes of the operand check, in their order (R122, R155). -/
theorem operandCheck_cases (b : Block) :
    (b.valid = false ∧ operandCheck b = .noKey) ∨
    (b.valid = true ∧ (25 < b.v1.toNat ∨ 25 < b.v2.toNat) ∧ operandCheck b = .badSymbol) ∨
    (b.valid = true ∧ b.v1.toNat ≤ 25 ∧ b.v2.toNat ≤ 25 ∧ operandCheck b = .ok) := by
  unfold operandCheck
  cases hv : b.valid
  · simp
  · by_cases h : 25 < b.v1.toNat ∨ 25 < b.v2.toNat
    · simp [h]
    · simp [h]; omega

/-- What the DET register holds after VALIDATE. -/
theorem symbolInt_det (k : Matrix2) : symbolInt (symbolOf (det26 k)) = det26 k := by
  have := det26_range k
  exact symbolInt_symbolOf _ this.1 (by omega)

/-- What the DETINV register holds after VALIDATE. -/
theorem symbolInt_inv (k : Matrix2) : symbolInt (symbolOf (inv26 (det26 k))) = inv26 (det26 k) := by
  have h := det26_range k
  have := inv26_range _ h.1 h.2
  exact symbolInt_symbolOf _ this.1 (by omega)

theorem symbolInt_mvm_fst (m : Matrix2) (v1 v2 : Int) :
    symbolInt (symbolOf (mvm26 m v1 v2).1) = (mvm26 m v1 v2).1 := by
  have := (mvm26_range m v1 v2).1
  exact symbolInt_symbolOf _ this.1 (by omega)

theorem symbolInt_mvm_snd (m : Matrix2) (v1 v2 : Int) :
    symbolInt (symbolOf (mvm26 m v1 v2).2) = (mvm26 m v1 v2).2 := by
  have := (mvm26_range m v1 v2).2
  exact symbolInt_symbolOf _ this.1 (by omega)

theorem transformed_noKey {b : Block} (m : Matrix2) (h : b.valid = false) : transformed m b = b.setErr .noKey := by
  simp [transformed, operandCheck, h]

theorem transformed_ok {b : Block} (m : Matrix2) (h : b.valid = true) (h1 : b.v1.toNat ≤ 25) (h2 : b.v2.toNat ≤ 25) :
    transformed m b = b.setResult (mvm26 m (symbolInt b.v1) (symbolInt b.v2)) := by
  rcases operandCheck_cases b with hc | hc | hc
  · rw [hc.1] at h; cases h
  · omega
  · simp [transformed, hc.2.2.2]

theorem transformed_badSymbol {b : Block} (m : Matrix2) (h : b.valid = true)
    (h1 : 25 < b.v1.toNat ∨ 25 < b.v2.toNat) : transformed m b = b.setErr .badSymbol := by
  rcases operandCheck_cases b with hc | hc | hc
  · rw [hc.1] at h; cases h
  · simp [transformed, hc.2.2]
  · omega

theorem transformed_err (m : Matrix2) (b : Block) : (transformed m b).err = operandCheck b := by
  unfold transformed
  split
  · next h => rw [h]; rfl
  · rfl

/-- The frame of ENC and DEC on the block. -/
theorem transformed_frame (m : Matrix2) (b : Block) :
    (transformed m b).k11 = b.k11 ∧ (transformed m b).k12 = b.k12 ∧ (transformed m b).k21 = b.k21 ∧
    (transformed m b).k22 = b.k22 ∧ (transformed m b).v1 = b.v1 ∧ (transformed m b).v2 = b.v2 ∧
    (transformed m b).det = b.det ∧ (transformed m b).detinv = b.detinv ∧ (transformed m b).valid = b.valid ∧
    ((transformed m b).err ≠ .ok → (transformed m b).r1 = b.r1 ∧ (transformed m b).r2 = b.r2) := by
  rw [transformed_err]
  unfold transformed
  split
  · next h => simp [h]
  · simp

theorem transformed_key (m : Matrix2) (b : Block) : (transformed m b).key = b.key := by
  obtain ⟨h1, h2, h3, h4, _⟩ := transformed_frame m b
  simp only [Block.key, h1, h2, h3, h4]

end Sys2Proof.Machine
end

