-- ==== Sys2Proof/Laws/PerInstr.lean ====
section
/-! SUPPORT. One lemma per command and family: the table's word of each command. -/

namespace Sys2Proof.Laws.TableWord

/-- The command is well formed, and its word, numbered as the opcode table numbers it, is read back as the command (R72). -/
def Statement (i : Instr) : Prop :=
  i.wellFormed = true ∧ decodeTableWord 32 (encode i).toNat = some i

theorem validate : Statement .validate := ⟨rfl, by decide⟩
theorem enc : Statement .enc := ⟨rfl, by decide⟩
theorem dec : Statement .dec := ⟨rfl, by decide⟩

end Sys2Proof.Laws.TableWord
end

