-- ==== Sys2Proof/Tests/Slice0.lean ====
section
/-! SUPPORT. The model's own tests: ill-formed terms the checks refuse, words written out from the encodings,
one step of each command on a small state, and a witness for the hypotheses of each obligation.
Expected values come from the spec's rules and from 95_test_vectors.md. -/

namespace Sys2Proof.Machine.Tests

/-! ## Small states -/

/-- A machine whose block holds this key, with nothing validated. -/
def keyed (a b c d : Int) : State :=
  { State.reset with block := ((((Block.reset.setK11 (word32 a)).setK12 (word32 b)).setK21 (word32 c)).setK22 (word32 d)) }

/-- A machine whose block holds this pair of symbols, and VALID = 1 with the key 3, 3, 2, 5 (its DET is 9 and its DETINV 3). -/
def loaded (v1 v2 : Nat) : State :=
  (keyed 3 3 2 5).withBlock
    { (keyed 3 3 2 5).block with v1 := BitVec.ofNat 5 v1, v2 := BitVec.ofNat 5 v2, det := 9#5, detinv := 3#5, valid := true }

/-- The block a step leaves, none where the step does not go on. -/
def blockLeft (o : Host.Outcome State Fault Refusal) : Option Block :=
  match o with
  | .next s => some s.block
  | .fault _ => none
  | .refused _ => none

/-- The newest response a step leaves. -/
def answerAfter (o : Host.Outcome State Fault Refusal) : Option HostResponse :=
  match o with
  | .next s => s.answers.head?
  | .fault _ => none
  | .refused _ => none

/-! ## WellFormed: one ill-formed term for each check (R53) -/

theorem test_misaligned_read_is_refused : (HostEvent.read 0x12#6 4).wellFormed = false := by decide
theorem test_misaligned_write_is_refused : (HostEvent.write 0x01#6 4 0xF#4 0#32).wellFormed = false := by decide
theorem test_unmapped_read_is_refused : (HostEvent.read 0x2C#6 4).wellFormed = false := by decide
theorem test_unmapped_write_is_refused : (HostEvent.write 0x3C#6 4 0xF#4 1#32).wellFormed = false := by decide
theorem test_read_of_cmd_is_refused : (HostEvent.read 0x14#6 4).wellFormed = false := by decide
theorem test_write_of_status_is_refused : (HostEvent.write 0x18#6 4 0xF#4 0#32).wellFormed = false := by decide
theorem test_write_of_vout_is_refused : (HostEvent.write 0x28#6 4 0xF#4 0#32).wellFormed = false := by decide
theorem test_halfword_read_is_refused : (HostEvent.read 0x18#6 2).wellFormed = false := by decide
theorem test_byte_write_is_refused : (HostEvent.write 0x00#6 1 0xF#4 0#32).wellFormed = false := by decide
theorem test_disabled_lane_is_refused : (HostEvent.write 0x00#6 4 0x7#4 0#32).wellFormed = false := by decide
theorem test_whole_word_accesses_are_well_formed :
    (HostEvent.read 0x28#6 4).wellFormed = true ∧ (HostEvent.write 0x14#6 4 0xF#4 0#32).wellFormed = true ∧
    HostEvent.reset.wellFormed = true := by decide

/-! ## Decoding: words written out bit by bit from R71 and R72 -/

theorem test_decode_validate : decode 0b00000000000000000000000000000001#32 = .command .validate := by decide
theorem test_decode_enc : decode 0b00000000000000000000000000000010#32 = .command .enc := by decide
theorem test_decode_dec : decode 0b00000000000000000000000000000011#32 = .command .dec := by decide
theorem test_decode_opcode_zero : decode 0b00000000000000000000000000000000#32 = .reserved (.reservedOp 0#4) := by decide
theorem test_decode_bit_four_set : decode 0b00000000000000000000000000010001#32 = .reserved .zeroFieldSet := by decide
theorem test_decode_top_bit_set : decode 0b10000000000000000000000000000010#32 = .reserved .zeroFieldSet := by decide
theorem test_table_words :
    decodeTableWord 32 1 = some .validate ∧ decodeTableWord 32 2 = some .enc ∧ decodeTableWord 32 3 = some .dec ∧
    decodeTableWord 32 0 = none ∧ decodeTableWord 32 0x11 = none := by decide

/-! ## The commands, one step each (R110, R111, R120 to R122, section 3 of 95_test_vectors.md) -/

theorem test_validate_negative_key :
    (blockLeft (step ((keyed (-3) (-2) 5 1).withFetchWord 32 1))).map (fun b => (b.det, b.detinv, b.err, b.valid)) =
      some (7#5, 15#5, .ok, true) := by decide
theorem test_validate_residues_zero_is_singular :
    (blockLeft (step ((keyed 26 0 0 26).withFetchWord 32 1))).map (fun b => (b.det, b.detinv, b.err, b.valid)) =
      some (0#5, 0#5, .keySingular, false) := by decide
theorem test_enc_he_gives_hi :
    (blockLeft (step ((loaded 7 4).withFetchWord 32 2))).map (fun b => (b.r1, b.r2, b.err)) =
      some (7#5, 8#5, .ok) := by decide
theorem test_enc_bad_symbol :
    (blockLeft (step ((loaded 3 26).withFetchWord 32 2))).map (fun b => (b.r1, b.r2, b.err)) =
      some (0#5, 0#5, .badSymbol) := by decide
theorem test_dec_hi_gives_he :
    (blockLeft (step ((loaded 7 8).withFetchWord 32 3))).map (fun b => (b.r1, b.r2, b.err)) =
      some (7#5, 4#5, .ok) := by decide
theorem test_dec_without_a_key :
    (blockLeft (step ((keyed 3 3 2 5).withFetchWord 32 3))).map (fun b => (b.r1, b.r2, b.err)) =
      some (0#5, 0#5, .noKey) := by decide
theorem test_reserved_word_sets_illegal_cmd :
    (blockLeft (step ((loaded 7 4).withFetchWord 32 0x11))).map (fun b => (b.err, b.valid)) =
      some (.illegalCmd, true) := by decide
theorem test_ikey_of_the_example_key :
    answerAfter (step ((loaded 7 4).present (readAt 0x24#6))) = some (.okWord 0x0914110F#32) := by decide
theorem test_extreme_determinant : det26 ⟨2147483647, 1, 1, 2147483647⟩ = 8 := by decide

/-! ## Witnesses of the obligations' hypotheses, in the order of the obligations -/

theorem wit_DecodingMatchesTheWholeWord :
    Instr.enc.wellFormed = true ∧ decode 0x00000002#32 = .command .enc ∧
    (1#32 : Word).toNat = 1 ∧ (2#32 : Word).toNat = 2 ∧ (3#32 : Word).toNat = 3 := by decide

theorem wit_StepRunsTheDecodedCommand :
    ((keyed 3 3 2 5).present (cmdWrite 1#32)).port = cmdWrite 1#32 :: [] ∧ decode 1#32 = .command .validate ∧
    ((loaded 25 0).present (cmdWrite 2#32)).port = cmdWrite 2#32 :: [] ∧ decode 2#32 = .command .enc ∧
    ((loaded 25 0).present (cmdWrite 3#32)).port = cmdWrite 3#32 :: [] ∧ decode 3#32 = .command .dec := by decide

/-- The four clauses at 1, 2 and 3 and at the words beside them, 0, 4 and 0xFFFFFFFF. -/
theorem wit_CommandWriteFollowsTheOpcodeMap :
    ((loaded 7 4).present (.write 0x14#6 4 0xF#4 1#32)).port = .write 0x14#6 4 0xF#4 1#32 :: [] ∧ (1#32 : Word).toNat = 1 ∧
    ((loaded 7 4).present (.write 0x14#6 4 0xF#4 2#32)).port = .write 0x14#6 4 0xF#4 2#32 :: [] ∧ (2#32 : Word).toNat = 2 ∧
    ((loaded 7 4).present (.write 0x14#6 4 0xF#4 3#32)).port = .write 0x14#6 4 0xF#4 3#32 :: [] ∧ (3#32 : Word).toNat = 3 ∧
    ∀ w ∈ [0x0#32, 0x4#32, 0xFFFFFFFF#32],
      ((loaded 7 4).present (.write 0x14#6 4 0xF#4 w)).port = .write 0x14#6 4 0xF#4 w :: [] ∧
      w.toNat ≠ 1 ∧ w.toNat ≠ 2 ∧ w.toNat ≠ 3 :=
  ⟨rfl, rfl, rfl, rfl, rfl, rfl, by simp [loaded, keyed, State.withBlock, State.present, State.reset]⟩

/-- One key for each verdict: all zero, singular, not invertible, and valid. -/
theorem wit_ValidateWritesTheUnitOutputsAndTheVerdict :
    ((keyed 0 0 0 0).block.k11 = 0#32 ∧ (keyed 0 0 0 0).block.k12 = 0#32 ∧
      (keyed 0 0 0 0).block.k21 = 0#32 ∧ (keyed 0 0 0 0).block.k22 = 0#32) ∧
    (∀ d ∈ [keyed 26 0 0 26, keyed 13 0 0 1, keyed 3 3 2 5],
      ¬ (d.block.k11 = 0#32 ∧ d.block.k12 = 0#32 ∧ d.block.k21 = 0#32 ∧ d.block.k22 = 0#32)) ∧
    (blockLeft (exec .validate (keyed 26 0 0 26))).map (fun c => c.det.toNat) = some 0 ∧
    (blockLeft (exec .validate (keyed 13 0 0 1))).map (fun c => (c.det.toNat, c.detinv.toNat)) = some (13, 0) ∧
    (blockLeft (exec .validate (keyed 3 3 2 5))).map (fun c => (c.det.toNat, c.detinv.toNat)) = some (9, 3) := by decide

/-- One key for each clause: gcd 1, determinant 0, the all-zero key, gcd 2 and gcd 13. -/
theorem wit_ValidateOutcomeIsDecidedByTheGcd :
    (Int.gcd 9 26 = 1 ∧ (9 : Int) = (3 * 5 - 3 * 2) % 26) ∧
    ((0 : Int) = (26 * 26 - 0 * 0) % 26 ∧ (keyed 26 0 0 26).block.key ≠ ⟨0, 0, 0, 0⟩) ∧
    ((0 : Int) = (0 * 0 - 0 * 0) % 26 ∧ (keyed 0 0 0 0).block.key = ⟨0, 0, 0, 0⟩) ∧
    ((24 : Int) = (1 * 4 - 2 * 3) % 26 ∧ (24 : Int) ≠ 0 ∧ Int.gcd 24 26 = 2) ∧
    ((13 : Int) = (13 * 1 - 0 * 0) % 26 ∧ (13 : Int) ≠ 0 ∧ Int.gcd 13 26 = 13) := by decide

theorem wit_ValidateReadsOnlyTheKey :
    (keyed 3 3 2 5).block.k11 = (loaded 25 26).block.k11 ∧ (keyed 3 3 2 5).block.k12 = (loaded 25 26).block.k12 ∧
    (keyed 3 3 2 5).block.k21 = (loaded 25 26).block.k21 ∧ (keyed 3 3 2 5).block.k22 = (loaded 25 26).block.k22 ∧
    keyed 3 3 2 5 ≠ loaded 25 26 := by decide

/-- The three clauses at the bounds 25 and 26 of a symbol. -/
theorem wit_EncMultipliesThePairByTheKey :
    (keyed 3 3 2 5).block.valid = false ∧
    ((loaded 26 25).block.valid = true ∧ 25 < (loaded 26 25).block.v1.toNat) ∧
    ((loaded 25 26).block.valid = true ∧ 25 < (loaded 25 26).block.v2.toNat) ∧
    ((loaded 25 25).block.valid = true ∧ (loaded 25 25).block.v1.toNat ≤ 25 ∧ (loaded 25 25).block.v2.toNat ≤ 25) := by decide

theorem wit_DecMultipliesThePairByTheInverseKey :
    (keyed 3 3 2 5).block.valid = false ∧
    ((loaded 31 0).block.valid = true ∧ 25 < (loaded 31 0).block.v1.toNat) ∧
    ((loaded 0 26).block.valid = true ∧ 25 < (loaded 0 26).block.v2.toNat) ∧
    ((loaded 0 25).block.valid = true ∧ (loaded 0 25).block.v1.toNat ≤ 25 ∧ (loaded 0 25).block.v2.toNat ≤ 25 ∧
      1 ≤ (loaded 0 25).block.detinv.toNat ∧ (loaded 0 25).block.detinv.toNat ≤ 25) := by decide

/-- The bounds 1 and 25 of DETINV beside VALID = 1 and two symbols, for the clauses on the inverse key of DEC and of IKEY. -/
theorem wit_DetinvInTheInverseKeyDomain :
    ∀ di ∈ [1#5, 25#5],
      { (loaded 0 25).block with detinv := di }.valid = true ∧
      { (loaded 0 25).block with detinv := di }.v1.toNat ≤ 25 ∧ { (loaded 0 25).block with detinv := di }.v2.toNat ≤ 25 ∧
      1 ≤ { (loaded 0 25).block with detinv := di }.detinv.toNat ∧
      { (loaded 0 25).block with detinv := di }.detinv.toNat ≤ 25 := by decide

/-- A failing ENC and a failing DEC, and registers the frame covers. -/
theorem wit_CommandsLeaveTheOtherElements :
    (blockLeft (exec .enc (loaded 26 0))).map Block.err = some .badSymbol ∧
    (blockLeft (exec .dec (keyed 3 3 2 5))).map Block.err = some .noKey ∧
    (Reg.vout ≠ .status ∧ Reg.vout ≠ .det ∧ Reg.vout ≠ .detinv ∧ Reg.vout ≠ .ikey) ∧
    (Reg.ikey ≠ .status ∧ Reg.ikey ≠ .vout) := by decide

theorem wit_RoundTripOnTheRegisters :
    (loaded 7 4).block.Inv ∧ (loaded 7 4).block.valid = true ∧ (25#5 : Symbol).toNat ≤ 25 ∧ (0#5 : Symbol).toNat ≤ 25 ∧
    ((Instr.enc = .enc ∧ Instr.dec = .dec) ∨ (Instr.enc = .dec ∧ Instr.dec = .enc)) := by decide

theorem wit_FloormodIsTheNonNegativeRemainder :
    (0 : Int) < 1 ∧ (0 : Int) ≤ 25 ∧ (25 : Int) < 26 ∧ (26 : Int) ∣ -1 - 25 := by decide

theorem wit_OnlyResiduesMatterToTheUnits :
    (⟨3, 3, 2, 5⟩ : Matrix2) ≠ ⟨29, -23, 28, 31⟩ ∧
    (3 : Int) % 26 = 29 % 26 ∧ (3 : Int) % 26 = -23 % 26 ∧ (2 : Int) % 26 = 28 % 26 ∧ (5 : Int) % 26 = 31 % 26 := by decide

/-- The ends 0 and 25 of the range, an invertible determinant and the two kinds of one that is not. -/
theorem wit_InvUnitFindsTheUniqueInverse :
    ((0 : Int) ≤ 0 ∧ (25 : Int) ≤ 25) ∧ inv26 25 ≠ 0 ∧ Int.gcd 25 26 = 1 ∧ (25 * 25 : Int) % 26 = 1 ∧
    inv26 0 = 0 ∧ inv26 2 = 0 ∧ inv26 13 = 0 := by decide

theorem wit_ExtendedEuclidEqualsTheSearch : ((0 : Int) ≤ 0 ∧ (0 : Int) ≤ 25) ∧ (0 : Int) ≤ 25 ∧ (25 : Int) ≤ 25 := by decide

theorem wit_UnitsComputeTheReducedFormulas :
    (((0 : Int) ≤ 0 ∧ (0 : Int) ≤ 25) ∧ (0 : Int) ≤ 25 ∧ (25 : Int) ≤ 25) ∧
    ((1 : Int) ≤ 1 ∧ (1 : Int) ≤ 25) ∧ (1 : Int) ≤ 25 ∧ (25 : Int) ≤ 25 := by decide

theorem wit_InverseKeyUndoesTheKey :
    inv26 (det26 ⟨-3, -2, 5, 1⟩) ≠ 0 ∧ (0 : Int) ≤ 0 ∧ (0 : Int) ≤ 25 ∧ (0 : Int) ≤ 25 ∧ (25 : Int) ≤ 25 := by decide

theorem wit_KeysWithGcdOneHaveAnInverse : Int.gcd ((5 * 3 - 8 * 17) % 26) 26 = 1 := by decide

/-- A validated state and a state with no key both meet the invariant. -/
theorem wit_StepKeepsTheInvariant :
    (loaded 31 31).block.Inv ∧ (loaded 31 31).block.valid = true ∧ (keyed 2 0 0 1).block.Inv := by decide

theorem wit_BlockNeverReportsEmptyInput : (loaded 7 4).block.err ≠ .emptyInput := by decide

theorem wit_EveryStepGoesOn :
    (((loaded 7 4).present (readAt 0x18#6)).port = readAt 0x18#6 :: [] ∧ (readAt 0x18#6).answered = true) ∧
    ((loaded 7 4).present .reset).port = .reset :: [] ∧ (loaded 7 4).port = [] := by decide

/-- Each reason a Read and a Write is refused, at the bounds of its range, and the supported accesses beside them. -/
theorem wit_UnsupportedAccessesAnswerBusError :
    ((0x01#6 : Offset).toNat % 4 ≠ 0 ∧ 0x2C ≤ (0x2C#6 : Offset).toNat ∧ 0x2C ≤ (0x3F#6 : Offset).toNat ∧
      (0x14#6 : Offset).toNat = 0x14 ∧ (2 : Nat) ≠ 4 ∧ (8 : Nat) ≠ 4) ∧
    (∀ off ∈ [0x00#6, 0x10#6, 0x18#6, 0x28#6],
      ¬ (off.toNat % 4 ≠ 0 ∨ 0x2C ≤ off.toNat ∨ off.toNat = 0x14 ∨ (4 : Nat) ≠ 4)) ∧
    (0x18 ≤ (0x18#6 : Offset).toNat ∧ 0x18 ≤ (0x28#6 : Offset).toNat ∧ (0xE#4 : BitVec 4) ≠ 0xF#4) ∧
    (∀ off ∈ [0x00#6, 0x10#6, 0x14#6],
      ¬ (off.toNat % 4 ≠ 0 ∨ 0x18 ≤ off.toNat ∨ (4 : Nat) ≠ 4 ∨ (0xF#4 : BitVec 4) ≠ 0xF#4)) := by decide

theorem wit_WellFormedTransactionsAreTheAnsweredOnes :
    ((readAt 0x14#6).answered = true ∧ (readAt 0x14#6).wellFormed = false) ∧
    (writeAt 0x14#6 0#32).answered = true ∧ (writeAt 0x14#6 0#32).wellFormed = true := by decide

theorem wit_ReadsReturnTheMapAndChangeNothing :
    (keyed 3 3 2 5).block.valid = false ∧
    ((loaded 7 4).block.valid = true ∧ 1 ≤ (loaded 7 4).block.detinv.toNat ∧ (loaded 7 4).block.detinv.toNat ≤ 25) := by decide

theorem wit_KeyWordsAreTwosComplement :
    ((-2 ^ 31 : Int) ≤ -2147483648 ∧ (-2147483648 : Int) < 2 ^ 31) ∧ (-2 ^ 31 : Int) ≤ 2147483647 ∧ (2147483647 : Int) < 2 ^ 31 := by
  decide

theorem wit_RegisterWritesAreIdempotent :
    (writeAt 0x0C#6 5#32).writesKey = true ∧ (writeAt 0x10#6 0xFFFFFFFF#32).writesVin = true := by decide

theorem wit_EveryElementHasItsOnlyWriters :
    readAt 0x00#6 ≠ .reset ∧ (readAt 0x00#6).writesKey = false ∧ (readAt 0x00#6).writesVin = false ∧
    (readAt 0x00#6).writesCmd = false ∧ readAt 0x00#6 ≠ cmdWrite 1#32 ∧ readAt 0x00#6 ≠ cmdWrite 2#32 ∧
    readAt 0x00#6 ≠ cmdWrite 3#32 ∧
    (cmdWrite 2#32 ≠ .reset ∧
      (blockLeft (step ((loaded 26 0).present (cmdWrite 2#32)))).map Block.err = some .badSymbol) := by decide

/-- VALID rises at a VALIDATE of a good key, and falls at a key write, at a Reset, and at a VALIDATE of a bad key. -/
theorem wit_ValidChangesOnlyAsItsRuleSays :
    ((keyed 3 3 2 5).block.valid = false ∧
      (blockLeft (step ((keyed 3 3 2 5).present (cmdWrite 1#32)))).map Block.valid = some true) ∧
    (∀ e ∈ [writeAt 0x0C#6 5#32, .reset],
      (loaded 7 4).block.valid = true ∧ (blockLeft (step ((loaded 7 4).present e))).map Block.valid = some false) ∧
    (((keyed 2 0 0 1).withBlock { (keyed 2 0 0 1).block with valid := true }).block.valid = true ∧
      (blockLeft (step (((keyed 2 0 0 1).withBlock { (keyed 2 0 0 1).block with valid := true }).present
        (cmdWrite 1#32)))).map Block.valid = some false) ∧
    (writeAt 0x00#6 5#32).writesKey = true := by decide

theorem wit_NoResultBeforeTheNewKeyIsValidated :
    (writeAt 0x0C#6 5#32).writesKey = true ∧
    ∀ x ∈ [writeAt 0x10#6 0x407#32, cmdWrite 0#32, .reset], x ≠ cmdWrite 1#32 := by decide

theorem wit_TheValidKeyIsTheOneLastValidated :
    (∀ x ∈ [writeAt 0x10#6 0x407#32], x ≠ cmdWrite 1#32) ∧
    (blockLeft (runEvents [writeAt 0x10#6 0x407#32] (loaded 0 0))).map Block.valid = some true := by decide

theorem wit_StreamsAreServedInDeliveryOrder : (loaded 7 4).port = [] := by decide

theorem wit_ResetZeroesTheTwelveElements : ((loaded 7 4).present .reset).port = .reset :: [] := by decide

theorem wit_FirstReadsAfterResetAreZero :
    State.reset.block = State.reset.block ∧
    ∀ off ∈ [0x00#6, 0x10#6, 0x18#6, 0x28#6], off.toNat % 4 = 0 ∧ off.toNat < 0x2C ∧ off.toNat ≠ 0x14 := by decide

theorem wit_SetkeyOrderDoesNotMatter : (setkey 3 3 2 5).reverse.Perm (setkey 3 3 2 5) := by decide

/-- The first and the last address of the block, and the one after it, whatever BASE is. -/
theorem wit_PlatformAddressesSelectTheOffsets :
    offsetOf Config.BASE = some 0x00#6 ∧ offsetOf (Config.BASE + 63) = some 0x3F#6 ∧ offsetOf (Config.BASE + 64) = none := by
  simp [offsetOf]

theorem wit_InstancesShareNothing :
    ([loaded 7 4, keyed 3 3 2 5] : Instances)[0]? = some (loaded 7 4) ∧ (1 : Nat) ≠ 0 ∧
    ([loaded 7 4, keyed 3 3 2 5] : Instances)[1]? = some (keyed 3 3 2 5) := by decide

/-- The integers just outside the range of a key register. -/
theorem wit_OutOfRangeKeysAreRefused :
    ((2147483648 : Int) = (⟨3, 2147483648, 2, 5⟩ : Matrix2).m12 ∧ (2147483647 : Int) < 2147483648) ∧
    (-2147483649 : Int) = (⟨3, 3, 2, -2147483649⟩ : Matrix2).m22 ∧ (-2147483649 : Int) < -2147483648 := by decide

/-- One key for each clause. -/
theorem wit_ValidateKeyReturnsTheFirstFailingReason :
    keyInRange ⟨0, 0, 0, 0⟩ = true ∧
    (keyInRange ⟨26, 0, 0, 26⟩ = true ∧ (⟨26, 0, 0, 26⟩ : Matrix2) ≠ ⟨0, 0, 0, 0⟩ ∧ det26 ⟨26, 0, 0, 26⟩ = 0) ∧
    (keyInRange ⟨13, 0, 0, 1⟩ = true ∧ (⟨13, 0, 0, 1⟩ : Matrix2) ≠ ⟨0, 0, 0, 0⟩ ∧ det26 ⟨13, 0, 0, 1⟩ ≠ 0 ∧
      Int.gcd (det26 ⟨13, 0, 0, 1⟩) 26 ≠ 1) ∧
    (keyInRange ⟨-2147483648, 1, -1, -2147483648⟩ = true ∧ Int.gcd (det26 ⟨-2147483648, 1, -1, -2147483648⟩) 26 = 1) := by
  decide

/-- A text with no letter, one with an even count and one with an odd count, from R142 and section 2.9 of the vectors. -/
theorem wit_NormalizeKeepsTheLettersAndPads :
    normalizeText ['1', '2', '3', '4', '!', '!'] = .error .emptyInput ∧
    normalizeText ['h', 'E', ' ', 'l', 'P', 'é'] = .ok [7, 4, 11, 15] ∧
    normalizeText ['Z', 'a', '@', 'A', '['] = .ok [25, 0, 0, 23] ∧
    normalizeText [Char.ofNat 96, Char.ofNat 97, Char.ofNat 122, Char.ofNat 123] = .ok [0, 25] := by decide

theorem wit_NormalizeIsIdempotent : normalizeText ['a', '-', 'b', 'c'] = .ok [0, 1, 2, 23] := by decide

theorem wit_OddTextsArePaddedWithX :
    (∀ c ∈ ['A', 'z', 'Z'], ('A' ≤ c ∧ c ≤ 'Z') ∨ ('a' ≤ c ∧ c ≤ 'z')) ∧ ['A', 'z', 'Z'].length % 2 = 1 := by simp

theorem wit_TextResultsHaveThePaddedLength :
    keyInRange ⟨3, 3, 2, 5⟩ = true ∧ Int.gcd (det26 ⟨3, 3, 2, 5⟩) 26 = 1 ∧
    normalizeText ['a'] = .ok [0, 23] ∧ normalizeText [] = .error .emptyInput := by decide

theorem wit_DecryptUndoesEncrypt :
    keyInRange ⟨3, 3, 2, 5⟩ = true ∧ Int.gcd (det26 ⟨3, 3, 2, 5⟩) 26 = 1 ∧ normalizeText ['H', 'e'] = .ok [7, 4] := by decide

theorem wit_KeyErrorsComeFirst :
    ∃ t, validateKey ⟨0, 0, 0, 0⟩ (loaded 7 4) = .next (.error (.invalidKey .allZero), t) := ⟨_, rfl⟩

theorem wit_HostCallsSeeNoInternalError : keyInRange ⟨2147483647, -2147483648, 0, 1⟩ = true := by decide

theorem wit_TextResultsAreTheMatrixProducts :
    keyInRange ⟨3, 3, 2, 5⟩ = true ∧ Int.gcd (det26 ⟨3, 3, 2, 5⟩) 26 = 1 ∧
    normalizeText ['H', 'e', 'l', 'p'] = .ok [7, 4, 11, 15] ∧
    (([7, 4, 11, 15] : List Nat)[2 * 0]? = some 7 ∧ ([7, 4, 11, 15] : List Nat)[2 * 0 + 1]? = some 4) ∧
    (([7, 4, 11, 15] : List Nat)[2 * 1]? = some 11 ∧ ([7, 4, 11, 15] : List Nat)[2 * 1 + 1]? = some 15) := by decide

/-! ## The host functions -/

/-- The letters of R136 at both ends of the range, and of the pair (7, 8). -/
theorem test_letters : letters [0, 25, 7, 8] = ['A', 'Z', 'H', 'I'] := by decide
theorem test_parameters_of_r7 :
    Config.M = 26 ∧ Config.N = 2 ∧ Config.PAD = 23 ∧ Config.KW = 32 ∧ Config.SW = 5 ∧ Config.DW = 32 ∧
    Config.BLOCK_SIZE = 0x40 ∧ Config.PARSE_POLICY = .defaultToZero := by decide

end Sys2Proof.Machine.Tests
end

section
/-! The platform addresses of the block (R7, R54, R56): what `offsetOf` answers, for every value of BASE. -/

namespace Sys2Proof.Machine

/-- An address decodes to an offset exactly when it is that offset's platform address: an address inside the block
is at most 63 above BASE, so the six bits of the offset lose nothing. -/
theorem offsetOf_eq_some_iff {addr : Nat} {off : Offset} :
    offsetOf addr = some off ↔ addr = platformAddress off := by
  have hoff : off.toNat < 64 := off.isLt
  unfold offsetOf platformAddress Config.BLOCK_SIZE
  split
  case isTrue hin =>
    have hword : BitVec.ofNat 6 (addr - Config.BASE) = off ↔ addr - Config.BASE = off.toNat := by
      rw [← BitVec.toNat_inj, BitVec.toNat_ofNat, Nat.mod_eq_of_lt (by omega)]
    rw [Option.some_inj, hword]
    omega
  case isFalse hout =>
    simp only [reduceCtorEq, false_iff]
    omega

/-- The rest of the address space belongs to no offset (R54, R56). -/
theorem offsetOf_eq_none_iff {addr : Nat} :
    offsetOf addr = none ↔ addr < Config.BASE ∨ Config.BASE + 64 ≤ addr := by
  unfold offsetOf Config.BLOCK_SIZE
  split
  case isTrue hin =>
    simp only [reduceCtorEq, false_iff]
    omega
  case isFalse hout =>
    simp only [true_iff]
    omega

/-- Settles O44: `offsetOf` and `platformAddress` are inverse to each other on the block, and the rest decodes to none. -/
theorem platformAddressesSelectTheOffsets : Obligations.PlatformAddressesSelectTheOffsets := by
  unfold Obligations.PlatformAddressesSelectTheOffsets
  exact ⟨fun _ => offsetOf_eq_some_iff.mpr rfl, fun _ _ => offsetOf_eq_some_iff.mp, fun _ => offsetOf_eq_none_iff⟩

end Sys2Proof.Machine
end

section
/-! The kinds of event the host port can deliver, and what a Read or a Write of a register does as one step (R50 to R53, R72, R80). -/

namespace Sys2Proof.Machine

/-- One of the four registers that hold the key (R21, R22). -/
abbrev Reg.IsKey (r : Reg) : Prop := r = .k11 ∨ r = .k12 ∨ r = .k21 ∨ r = .k22

/-- The events by what they can do to the block: every event is of one of these kinds (`HostEvent.kind`). -/
inductive HostEvent.Kind : HostEvent → Prop
  | reset : Kind .reset
  | keyWrite {r : Reg} (w : Word) (hr : r.IsKey) : Kind (writeAt r.offset w)
  | vinWrite (w : Word) : Kind (writeAt Reg.vin.offset w)
  | command (i : Instr) : Kind (cmdWrite (encode i))
  | reserved (w : Word) (hafter : ∀ b, blockAfter (cmdWrite w) b = b.setErr .illegalCmd) : Kind (cmdWrite w)
  | idle {e : HostEvent} (hkey : e.writesKey = false) (hafter : ∀ b, blockAfter e b = b) : Kind e

/-- A word that decodes to a command is that command's encoding (R71, R72). -/
theorem eq_encode_of_decode {w : Word} {i : Instr} (h : decode w = .command i) : w = encode i := by
  unfold decode at h
  split_ifs at h with h1 h2 h3 <;> cases h
  · exact h1
  · exact h2
  · exact h3

/-- A Write of a command word runs the command of the opcode map, or is the Write of a reserved word. -/
theorem kind_cmdWrite (w : Word) : (cmdWrite w).Kind := by
  cases hd : decode w with
  | command i => exact eq_encode_of_decode hd ▸ .command i
  | reserved _ => exact .reserved w fun b => by rw [blockAfter_cmdWrite, afterCmdWord, hd]

/-- The key writes by their offsets are the supported Writes of the four key registers. -/
theorem writesKey_iff {e : HostEvent} :
    e.writesKey = true ↔ ∃ (r : Reg) (w : Word), r.IsKey ∧ e = writeAt r.offset w := by
  constructor
  · intro h
    cases e with
    | read | reset => cases h
    | write off bytes lanes w =>
      simp only [HostEvent.writesKey, Bool.and_eq_true, decide_eq_true_eq, beq_iff_eq] at h
      obtain ⟨⟨⟨hle, halign⟩, rfl⟩, rfl⟩ := h
      have hoff : off.toNat = 0x00 ∨ off.toNat = 0x04 ∨ off.toNat = 0x08 ∨ off.toNat = 0x0C := by omega
      have written {r : Reg} (hr : r.IsKey) (h : off.toNat = r.offset.toNat) :
          ∃ (r : Reg) (v : Word), r.IsKey ∧ HostEvent.write off 4 0xF#4 w = writeAt r.offset v :=
        ⟨r, w, hr, by rw [BitVec.eq_of_toNat_eq h]; rfl⟩
      rcases hoff with h | h | h | h
      · exact written (r := .k11) (by decide) h
      · exact written (r := .k12) (by decide) h
      · exact written (r := .k21) (by decide) h
      · exact written (r := .k22) (by decide) h
  · rintro ⟨r, w, hr, rfl⟩
    rcases hr with rfl | rfl | rfl | rfl <;> rfl

theorem writesKey_writeAt {r : Reg} (hr : r.IsKey) (w : Word) : (writeAt r.offset w).writesKey = true :=
  writesKey_iff.mpr ⟨r, w, hr, rfl⟩

theorem Reg.IsKey.writable {r : Reg} (hr : r.IsKey) : r.writable = true := by
  rcases hr with rfl | rfl | rfl | rfl <;> rfl

theorem Reg.IsKey.ne_cmd {r : Reg} (hr : r.IsKey) : r ≠ .cmd := by
  rcases hr with rfl | rfl | rfl | rfl <;> decide

/-- A Write that reaches no register is no key write. -/
theorem writesKey_of_writeTarget_none {off : Offset} {bytes : Nat} {lanes : BitVec 4} {w : Word}
    (h : writeTarget off bytes lanes = none) : (HostEvent.write off bytes lanes w).writesKey = false := by
  refine Bool.eq_false_iff.mpr fun hk => ?_
  obtain ⟨r, v, hr, he⟩ := writesKey_iff.mp hk
  cases he
  rw [writeTarget_offset hr.writable] at h
  cases h

/-- Every event is of one of the kinds: a Read and an unsupported Write do nothing, and a supported Write goes to a key register, to VIN or to CMD. -/
theorem HostEvent.kind (e : HostEvent) : e.Kind := by
  cases e with
  | read off bytes => exact .idle rfl fun _ => rfl
  | reset => exact .reset
  | write off bytes lanes w =>
    cases htarget : writeTarget off bytes lanes with
    | none => exact .idle (writesKey_of_writeTarget_none htarget) fun b => by simp only [blockAfter, htarget]
    | some r =>
      obtain ⟨rfl, rfl, rfl, hw⟩ := writeTarget_eq_some.mp htarget
      cases r with
      | k11 | k12 | k21 | k22 => exact .keyWrite w (by decide)
      | vin => exact .vinWrite w
      | cmd => exact kind_cmdWrite w
      | status | det | detinv | ikey | vout => cases hw

/-- A Write of a register other than CMD stores its word in the block. -/
theorem blockAfter_writeAt {r : Reg} (hw : r.writable = true) (hcmd : r ≠ .cmd) (w : Word) (b : Block) :
    blockAfter (writeAt r.offset w) b = storeReg r w b := by
  simp only [writeAt, blockAfter, writeTarget_offset hw]

/-- The step of a Write of a register other than CMD: the word is stored and the response is Ok (R52). -/
theorem step_writeAt {r : Reg} (hw : r.writable = true) (hcmd : r ≠ .cmd) (w : Word) (s : State) :
    step (s.present (writeAt r.offset w)) = .next ((s.withBlock (storeReg r w s.block)).answer .ok) := by
  have hresp : responsesTo (writeAt r.offset w) s.block = [.ok] := by
    simp [writeAt, responsesTo, writeTarget_offset hw]
  rw [step_present, stateAfter, blockAfter_writeAt hw hcmd, hresp]
  rfl

/-- The step of a Read of a readable register: the response is its value, and the block is as it was (R51). -/
theorem step_readAt {r : Reg} {v : Word} {s : State} (hv : readReg r s.block = some v) :
    step (s.present (readAt r.offset)) = .next (s.answer (.okWord v)) := by
  have hresp : readResponse r.offset 4 s.block = .okWord v := by
    simp only [readResponse, if_true, regAt_offset, hv]
  rw [step_present, stateAfter, readAt, responsesTo, hresp]
  rfl

/-- No command writes a key register (R22). -/
theorem commanded_keeps_key (i : Instr) (b : Block) :
    (commanded i b).k11 = b.k11 ∧ (commanded i b).k12 = b.k12 ∧
    (commanded i b).k21 = b.k21 ∧ (commanded i b).k22 = b.k22 := by
  cases i with
  | validate => exact ⟨rfl, rfl, rfl, rfl⟩
  | enc | dec =>
    obtain ⟨h11, h12, h21, h22, -⟩ := transformed_frame _ b
    exact ⟨h11, h12, h21, h22⟩

/-- A key write touches no element but the key registers and VALID, which it clears (R22). -/
theorem storeReg_key_frame {r : Reg} (hr : r.IsKey) (w : Word) (b : Block) :
    (storeReg r w b).valid = false ∧ (storeReg r w b).v1 = b.v1 ∧ (storeReg r w b).v2 = b.v2 ∧
    (storeReg r w b).det = b.det ∧ (storeReg r w b).detinv = b.detinv ∧
    (storeReg r w b).r1 = b.r1 ∧ (storeReg r w b).r2 = b.r2 ∧ (storeReg r w b).err = b.err := by
  rcases hr with rfl | rfl | rfl | rfl <;> exact ⟨rfl, rfl, rfl, rfl, rfl, rfl, rfl, rfl⟩

theorem blockAfter_keyWrite {r : Reg} (hr : r.IsKey) (w : Word) (b : Block) :
    blockAfter (writeAt r.offset w) b = storeReg r w b :=
  blockAfter_writeAt hr.writable hr.ne_cmd w b

theorem blockAfter_vinWrite (w : Word) (b : Block) : blockAfter (writeAt Reg.vin.offset w) b = b.setVin w :=
  blockAfter_writeAt rfl (by decide) w b

/-- Settles O30: each key write and each key read is the step of its register, and no command touches the key. -/
theorem keyWritesStoreAndClearValid : Obligations.KeyWritesStoreAndClearValid := by
  unfold Obligations.KeyWritesStoreAndClearValid
  intro s w
  have written {r : Reg} (hr : r.IsKey) := step_writeAt hr.writable hr.ne_cmd w s
  refine ⟨written (r := .k11) (by decide), written (r := .k12) (by decide), written (r := .k21) (by decide),
    written (r := .k22) (by decide), step_readAt (r := .k11) rfl, step_readAt (r := .k12) rfl,
    step_readAt (r := .k21) rfl, step_readAt (r := .k22) rfl, fun i => ?_⟩
  exact ⟨_, exec_eq i s, commanded_keeps_key i s.block⟩

end Sys2Proof.Machine
end

section
/-! The invariant of the state (R30): Reset meets it and every event keeps it. -/

namespace Sys2Proof.Machine

/-- Settles O21: after Reset the four ranged registers are 0 and VALID is 0. -/
theorem resetMeetsTheInvariant : Obligations.ResetMeetsTheInvariant := by
  unfold Obligations.ResetMeetsTheInvariant
  exact ⟨by decide, fun h => by cases h⟩

/-- A key write leaves the ranged registers and clears VALID, so nothing is asked of the new key. -/
theorem storeReg_key_inv {r : Reg} (hr : r.IsKey) (w : Word) {b : Block} (hb : b.Inv) : (storeReg r w b).Inv := by
  obtain ⟨hvalid, -, -, hdet, hdetinv, hr1, hr2, -⟩ := storeReg_key_frame hr w b
  refine ⟨?_, fun h => ?_⟩
  · rw [Block.ranges, hdet, hdetinv, hr1, hr2]
    exact hb.1
  · rw [hvalid] at h
    cases h

theorem symbolOf_le_of_range {x : Int} (h : 0 ≤ x ∧ x ≤ 25) : (symbolOf x).toNat ≤ 25 := by
  rw [symbolOf_toNat x h.1 (by omega)]
  omega

/-- Neither V1, V2 nor ERR is spoken of by the invariant; a pair of results only has to be in range. -/
theorem transformed_inv (m : Matrix2) {b : Block} (hb : b.Inv) : (transformed m b).Inv := by
  unfold transformed
  split
  · obtain ⟨⟨hdet, hdetinv, -, -⟩, hkey⟩ := hb
    obtain ⟨hfst, hsnd⟩ := mvm26_range m (symbolInt b.v1) (symbolInt b.v2)
    exact ⟨⟨hdet, hdetinv, symbolOf_le_of_range hfst, symbolOf_le_of_range hsnd⟩, hkey⟩
  · exact hb

/-- A key that passes the three checks (R110). -/
theorem of_keyCheck_ok {k : Matrix2} (hok : keyCheck k = .ok) :
    k ≠ ⟨0, 0, 0, 0⟩ ∧ det26 k ≠ 0 ∧ inv26 (det26 k) ≠ 0 := by
  rcases keyCheck_cases k with ⟨-, hc⟩ | ⟨-, -, hc⟩ | ⟨-, -, -, hc⟩ | ⟨hne, hdet, hinv, -⟩
  · cases hc.symm.trans hok
  · cases hc.symm.trans hok
  · cases hc.symm.trans hok
  · exact ⟨hne, hdet, hinv⟩

/-- Where VALIDATE finds no error, its operands and results are a validated key (R30, R110). -/
theorem validate_holdsValidatedKey {b : Block} (hok : keyCheck b.key = .ok) :
    (commanded .validate b).holdsValidatedKey := by
  obtain ⟨hne, hdet, hinv⟩ := of_keyCheck_ok hok
  obtain ⟨hd0, hd25⟩ := det26_range b.key
  have hinvRange := inv26_range _ hd0 hd25
  have hdetReg : ((symbolOf (det26 b.key)).toNat : Int) = det26 b.key := symbolInt_det b.key
  have hinvReg : ((symbolOf (inv26 (det26 b.key))).toNat : Int) = inv26 (det26 b.key) := symbolInt_inv b.key
  refine ⟨?_, hdetReg, ?_, ?_, symbolOf_le_of_range hinvRange, ?_, ?_⟩
  · rintro ⟨h11, h12, h21, h22⟩
    exact hne ((key_eq_zero_iff b).mpr ⟨(sint32_eq_zero_iff _).mp h11, (sint32_eq_zero_iff _).mp h12,
      (sint32_eq_zero_iff _).mp h21, (sint32_eq_zero_iff _).mp h22⟩)
  · change (symbolOf (det26 b.key)).toNat ≠ 0
    omega
  · change 1 ≤ (symbolOf (inv26 (det26 b.key))).toNat
    omega
  · change floormod (symbolInt (symbolOf (det26 b.key)) * symbolInt (symbolOf (inv26 (det26 b.key)))) Config.M = 1
    rw [symbolInt_det, symbolInt_inv, floormod_M]
    exact mul_inv26 _ hd0 hd25 hinv
  · have hgcd := (inv26_ne_zero_iff _ hd0 hd25).mp hinv
    rw [← hdetReg] at hgcd
    exact hgcd

/-- VALIDATE writes unit outputs in 0 to 25, and VALID = 1 only for a validated key. -/
theorem validate_inv {b : Block} (hb : b.Inv) : (commanded .validate b).Inv := by
  obtain ⟨⟨-, -, hr1, hr2⟩, -⟩ := hb
  obtain ⟨hd0, hd25⟩ := det26_range b.key
  refine ⟨⟨symbolOf_le_of_range ⟨hd0, hd25⟩, symbolOf_le_of_range (inv26_range _ hd0 hd25), hr1, hr2⟩, fun hvalid => ?_⟩
  exact validate_holdsValidatedKey (eq_of_beq hvalid)

/-- Every event keeps the invariant (R30). -/
theorem blockAfter_inv (e : HostEvent) {b : Block} (hb : b.Inv) : (blockAfter e b).Inv := by
  cases e.kind with
  | reset => exact resetMeetsTheInvariant
  | keyWrite w hr => exact blockAfter_keyWrite hr w b ▸ storeReg_key_inv hr w hb
  | vinWrite w => exact blockAfter_vinWrite w b ▸ hb
  | command i =>
    rw [blockAfter_command]
    cases i with
    | validate => exact validate_inv hb
    | enc | dec => exact transformed_inv _ hb
  | reserved w hafter => exact hafter b ▸ hb
  | idle _ hafter => exact (hafter b).symm ▸ hb

/-- Settles O22: a step is the event at the front of the port, which keeps the invariant, or nothing at all. -/
theorem stepKeepsTheInvariant : Obligations.StepKeepsTheInvariant := by
  unfold Obligations.StepKeepsTheInvariant
  intro s hs
  cases hport : s.port with
  | nil => exact ⟨s, step_nil hport, hs⟩
  | cons e rest => exact ⟨_, step_cons hport, blockAfter_inv e hs⟩

/-- What the invariant says of a block with VALID = 1, in the words of the registers (R30 (b)). -/
theorem holdsValidatedKey_in_words {b : Block} (h : b.holdsValidatedKey) :
    ¬ (b.k11 = 0#32 ∧ b.k12 = 0#32 ∧ b.k21 = 0#32 ∧ b.k22 = 0#32) ∧
    (b.det.toNat : Int) = (b.k11.toInt * b.k22.toInt - b.k12.toInt * b.k21.toInt) % 26 ∧
    b.det.toNat ≠ 0 ∧ 1 ≤ b.detinv.toNat ∧ b.detinv.toNat ≤ 25 ∧
    (b.det.toNat * b.detinv.toNat) % 26 = 1 ∧ Nat.gcd b.det.toNat 26 = 1 := by
  obtain ⟨hne, hdet, hdet0, hinv1, hinv25, hprod, hgcd⟩ := h
  rw [det26_eq] at hdet
  rw [floormod_M] at hprod
  simp only [sint32_eq_zero_iff] at hne
  have hprodNat : (b.det.toNat * b.detinv.toNat) % 26 = 1 := by
    simp only [symbolInt] at hprod
    exact_mod_cast hprod
  exact ⟨hne, hdet, hdet0, hinv1, hinv25, hprodNat, hgcd⟩

/-- Settles O23: Reset meets the invariant and every event of the sequence keeps it. -/
theorem everyReachableBlockMeetsTheInvariant : Obligations.EveryReachableBlockMeetsTheInvariant := by
  unfold Obligations.EveryReachableBlockMeetsTheInvariant
  intro es
  obtain ⟨hranges, hkey⟩ : (stateAfterAll es State.reset).block.Inv :=
    stateAfterAll_keeps (P := Block.Inv) es (fun e _ _ => blockAfter_inv e) _ resetMeetsTheInvariant
  exact ⟨_, runEvents_eq es _, hranges, fun hvalid => holdsValidatedKey_in_words (hkey hvalid)⟩

end Sys2Proof.Machine
end

section
/-! The writers of each element of the block (R20, R22 to R29), and what follows for VALID and the validated key. -/

namespace Sys2Proof.Machine

/-- An event other than Reset takes the block `b` to `c`: each element is changed by its own writers only. -/
structure HostEvent.WritesOnlyItsOwn (e : HostEvent) (b c : Block) : Prop where
  key : e.writesKey = false → c.k11 = b.k11 ∧ c.k12 = b.k12 ∧ c.k21 = b.k21 ∧ c.k22 = b.k22
  vin : e.writesVin = false → c.v1 = b.v1 ∧ c.v2 = b.v2
  det : e ≠ cmdWrite 1#32 → c.det = b.det ∧ c.detinv = b.detinv
  result : (e ≠ cmdWrite 2#32 ∧ e ≠ cmdWrite 3#32) ∨ c.err ≠ .ok → c.r1 = b.r1 ∧ c.r2 = b.r2
  valid : e ≠ cmdWrite 1#32 → e.writesKey = false → c.valid = b.valid
  err : e.writesCmd = false → c.err = b.err

theorem writesOnlyItsOwn_refl (e : HostEvent) (b : Block) : e.WritesOnlyItsOwn b b where
  key _ := ⟨rfl, rfl, rfl, rfl⟩
  vin _ := ⟨rfl, rfl⟩
  det _ := ⟨rfl, rfl⟩
  result _ := ⟨rfl, rfl⟩
  valid _ _ := rfl
  err _ := rfl

theorem writesOnlyItsOwn_keyWrite {r : Reg} (hr : r.IsKey) (w : Word) (b : Block) :
    (writeAt r.offset w).WritesOnlyItsOwn b (storeReg r w b) := by
  obtain ⟨-, hv1, hv2, hdet, hdetinv, hr1, hr2, herr⟩ := storeReg_key_frame hr w b
  have hkey : (writeAt r.offset w).writesKey ≠ false := by
    rw [writesKey_writeAt hr w]
    decide
  exact ⟨fun h => absurd h hkey, fun _ => ⟨hv1, hv2⟩, fun _ => ⟨hdet, hdetinv⟩, fun _ => ⟨hr1, hr2⟩,
    fun _ h => absurd h hkey, fun _ => herr⟩

theorem writesOnlyItsOwn_vinWrite (w : Word) (b : Block) :
    (writeAt Reg.vin.offset w).WritesOnlyItsOwn b (b.setVin w) :=
  { writesOnlyItsOwn_refl (writeAt Reg.vin.offset w) b with vin := fun h => by cases h }

/-- A Write to CMD that changes ERR alone: a reserved word, or a command that fails. -/
theorem writesOnlyItsOwn_setErr (w : Word) (c : ErrCode) (b : Block) :
    (cmdWrite w).WritesOnlyItsOwn b (b.setErr c) :=
  { writesOnlyItsOwn_refl (cmdWrite w) b with
    result := fun _ => ⟨rfl, rfl⟩
    err := fun h => by cases h }

/-- ENC and DEC write R1 and R2 when they end without error, and ERR. -/
theorem writesOnlyItsOwn_transformed {w : Word} (hw : w = 2#32 ∨ w = 3#32) (m : Matrix2) (b : Block) :
    (cmdWrite w).WritesOnlyItsOwn b (transformed m b) := by
  obtain ⟨h11, h12, h21, h22, hv1, hv2, hdet, hdetinv, hvalid, hfail⟩ := transformed_frame m b
  refine ⟨fun _ => ⟨h11, h12, h21, h22⟩, fun _ => ⟨hv1, hv2⟩, fun _ => ⟨hdet, hdetinv⟩, ?_, fun _ _ => hvalid,
    fun h => by cases h⟩
  rintro (⟨henc, hdec⟩ | herr)
  · rcases hw with rfl | rfl
    · exact absurd rfl henc
    · exact absurd rfl hdec
  · exact hfail herr

/-- VALIDATE writes DET, DETINV, VALID and ERR. -/
theorem writesOnlyItsOwn_validate (b : Block) :
    (cmdWrite 1#32).WritesOnlyItsOwn b (commanded .validate b) where
  key _ := ⟨rfl, rfl, rfl, rfl⟩
  vin _ := ⟨rfl, rfl⟩
  det h := absurd rfl h
  result _ := ⟨rfl, rfl⟩
  valid h := absurd rfl h
  err h := by cases h

theorem writesOnlyItsOwn_command (i : Instr) (b : Block) :
    (cmdWrite (encode i)).WritesOnlyItsOwn b (commanded i b) := by
  cases i with
  | validate => exact writesOnlyItsOwn_validate b
  | enc => exact writesOnlyItsOwn_transformed (.inl rfl) _ b
  | dec => exact writesOnlyItsOwn_transformed (.inr rfl) _ b

/-- R20's column of writers: every event but Reset changes an element only where it is one of the element's writers. -/
theorem blockAfter_writesOnlyItsOwn {e : HostEvent} (he : e ≠ .reset) (b : Block) :
    e.WritesOnlyItsOwn b (blockAfter e b) := by
  cases e.kind with
  | reset => exact absurd rfl he
  | keyWrite w hr => exact blockAfter_keyWrite hr w b ▸ writesOnlyItsOwn_keyWrite hr w b
  | vinWrite w => exact blockAfter_vinWrite w b ▸ writesOnlyItsOwn_vinWrite w b
  | command i => exact blockAfter_command i b ▸ writesOnlyItsOwn_command i b
  | reserved w hafter => exact hafter b ▸ writesOnlyItsOwn_setErr w _ b
  | idle _ hafter => exact (hafter b).symm ▸ writesOnlyItsOwn_refl e b

/-- Settles O35: the step is the event's own, and each element is covered by a field of `WritesOnlyItsOwn`. -/
theorem everyElementHasItsOnlyWriters : Obligations.EveryElementHasItsOnlyWriters := by
  unfold Obligations.EveryElementHasItsOnlyWriters
  intro s e he
  have h := blockAfter_writesOnlyItsOwn he s.block
  exact ⟨_, step_present e s, h.key, h.vin, h.det, h.result, h.valid, h.err⟩

/-- A key write clears VALID (R22, R28). -/
theorem blockAfter_valid_of_writesKey {e : HostEvent} (he : e.writesKey = true) (b : Block) :
    (blockAfter e b).valid = false := by
  obtain ⟨r, w, hr, rfl⟩ := writesKey_iff.mp he
  rw [blockAfter_keyWrite hr]
  exact (storeReg_key_frame hr w b).1

/-- VALIDATE leaves VALID = 1 exactly when it ends without error (R28, R110). -/
theorem blockAfter_validate_valid_iff (b : Block) :
    (blockAfter (cmdWrite 1#32) b).valid = true ↔ (blockAfter (cmdWrite 1#32) b).err = .ok :=
  beq_iff_eq

/-- VALID = 1 after an event that is no VALIDATE is VALID = 1 before it, and the event is neither a key write nor Reset. -/
theorem valid_before_of_valid_after {e : HostEvent} {b : Block} (he : e ≠ cmdWrite 1#32)
    (hafter : (blockAfter e b).valid = true) : b.valid = true ∧ e.writesKey = false ∧ e ≠ .reset := by
  have hreset : e ≠ .reset := by rintro rfl; cases hafter
  have hkey : e.writesKey = false := by
    refine Bool.eq_false_iff.mpr fun hk => ?_
    rw [blockAfter_valid_of_writesKey hk] at hafter
    cases hafter
  exact ⟨(blockAfter_writesOnlyItsOwn hreset b).valid he hkey ▸ hafter, hkey, hreset⟩

/-- Settles O36: VALID is VALIDATE's verdict, is cleared by a key write and Reset, and stays as it is at every other event. -/
theorem validChangesOnlyAsItsRuleSays : Obligations.ValidChangesOnlyAsItsRuleSays := by
  unfold Obligations.ValidChangesOnlyAsItsRuleSays
  intro s e
  refine ⟨_, step_present e s, fun hbefore hafter => ?_, fun hbefore hafter => ?_, ?_,
    fun hkey => blockAfter_valid_of_writesKey hkey s.block⟩
  · by_cases he : e = cmdWrite 1#32
    · subst he
      exact ⟨rfl, (blockAfter_validate_valid_iff s.block).mp hafter⟩
    · rw [(valid_before_of_valid_after he hafter).1] at hbefore
      cases hbefore
  · by_cases he : e = cmdWrite 1#32
    · subst he
      refine .inl ⟨rfl, fun herr => ?_⟩
      have hset := (blockAfter_validate_valid_iff s.block).mpr herr
      exact absurd (hset.symm.trans hafter) (by decide)
    · by_contra! hother
      obtain ⟨-, hkey, hreset⟩ := hother
      have hsame := (blockAfter_writesOnlyItsOwn hreset s.block).valid he (Bool.eq_false_iff.mpr hkey)
      exact absurd (hbefore.symm.trans (hsame.symm.trans hafter)) (by decide)
  · rintro rfl
    exact blockAfter_validate_valid_iff s.block

/-- The block `c` comes after `b` with no VALIDATE between: if VALID is 1 in `c`, it was in `b`, and the validated key is the same. -/
def Block.KeepsValidatedKey (b c : Block) : Prop :=
  c.valid = true → b.valid = true ∧ c.k11 = b.k11 ∧ c.k12 = b.k12 ∧ c.k21 = b.k21 ∧ c.k22 = b.k22 ∧
    c.det = b.det ∧ c.detinv = b.detinv

theorem keepsValidatedKey_blockAfter {e : HostEvent} (he : e ≠ cmdWrite 1#32) {b c : Block}
    (hc : b.KeepsValidatedKey c) : b.KeepsValidatedKey (blockAfter e c) := by
  intro hafter
  obtain ⟨hvalid, hkey, hreset⟩ := valid_before_of_valid_after he hafter
  have frame := blockAfter_writesOnlyItsOwn hreset c
  obtain ⟨h11, h12, h21, h22⟩ := frame.key hkey
  obtain ⟨hdet, hdetinv⟩ := frame.det he
  rw [h11, h12, h21, h22, hdet, hdetinv]
  exact hc hvalid

/-- Settles O38: every event but a VALIDATE keeps `KeepsValidatedKey`, which holds at the start. -/
theorem theValidKeyIsTheOneLastValidated : Obligations.TheValidKeyIsTheOneLastValidated := by
  unfold Obligations.TheValidKeyIsTheOneLastValidated
  intro s es hes
  refine ⟨_, runEvents_eq es s, ?_⟩
  exact stateAfterAll_keeps (P := s.block.KeepsValidatedKey) es
    (fun e he _ => keepsValidatedKey_blockAfter (hes e he)) s fun h => ⟨h, rfl, rfl, rfl, rfl, rfl, rfl⟩

end Sys2Proof.Machine
end

section
/-! The order of the host port: a stream is served front to back, and a step sees the front only (R60). -/

namespace Sys2Proof.Machine

/-- The step of a machine with an event at the front of its port: the event is answered, and what waits behind it stays as it is. -/
theorem step_withPort_cons (e : HostEvent) (rest : List HostEvent) (s : State) :
    step (s.withPort (e :: rest)) = .next ((stateAfter e s).withPort rest) :=
  step_cons (s := s.withPort (e :: rest)) rfl

/-- Settles O40: both steps end in `stateAfter e s` but for the list behind the event. -/
theorem laterTransactionsAreNotSeen : Obligations.LaterTransactionsAreNotSeen := by
  unfold Obligations.LaterTransactionsAreNotSeen
  intro s e p q
  exact ⟨_, step_withPort_cons e p s, step_withPort_cons e q s⟩

/-- Events taken from outside the port leave the port as it is. -/
theorem stateAfterAll_port (es : List HostEvent) (s : State) : (stateAfterAll es s).port = s.port := by
  induction es generalizing s with
  | nil => rfl
  | cons e es ih => exact ih (stateAfter e s)

/-- A run goes on from the state its first step leaves. -/
theorem core_run_succ {s t : State} (h : step s = .next t) (k : Nat) :
    Host.Core.run Sys2Proof.core (k + 1) s = Host.Core.run Sys2Proof.core k t := by
  have hcore : Sys2Proof.core.step s = .next t := h
  simp only [Host.Core.run]
  rw [hcore]

/-- As many steps as events are waiting serve the stream in order and leave an empty port. -/
theorem core_run_stream (es : List HostEvent) (s : State) :
    Host.Core.run Sys2Proof.core es.length (s.withPort es) = .next (stateAfterAll es (s.withPort [])) := by
  induction es generalizing s with
  | nil => rfl
  | cons e es ih =>
    calc Host.Core.run Sys2Proof.core (es.length + 1) (s.withPort (e :: es))
        = Host.Core.run Sys2Proof.core es.length ((stateAfter e s).withPort es) :=
          core_run_succ (step_withPort_cons e es s) es.length
      _ = .next (stateAfterAll es (stateAfter e (s.withPort []))) := ih (stateAfter e s)

/-- Settles O39: both ways of delivering the stream end in `stateAfterAll`, which leaves the port as it is. -/
theorem streamsAreServedInDeliveryOrder : Obligations.StreamsAreServedInDeliveryOrder := by
  unfold Obligations.StreamsAreServedInDeliveryOrder
  intro es s hport
  have hempty : s.withPort [] = s := hport ▸ rfl
  refine ⟨stateAfterAll es s, runEvents_eq es s, (stateAfterAll_port es s).trans hport, ?_⟩
  have hrun := core_run_stream es s
  rw [hempty] at hrun
  exact hrun

end Sys2Proof.Machine
end

section
/-! Register writes that store their word are idempotent (R52). -/

namespace Sys2Proof.Machine

/-- The VIN writes by their offset are the supported Writes of VIN (R74). -/
theorem writesVin_iff {e : HostEvent} :
    e.writesVin = true ↔ ∃ w : Word, e = writeAt Reg.vin.offset w := by
  constructor
  · intro h
    cases e with
    | read | reset => cases h
    | write off bytes lanes w =>
      simp only [HostEvent.writesVin, Bool.and_eq_true, beq_iff_eq] at h
      obtain ⟨⟨hoff, rfl⟩, rfl⟩ := h
      exact ⟨w, by rw [BitVec.eq_of_toNat_eq (y := Reg.vin.offset) hoff]; rfl⟩
  · rintro ⟨w, rfl⟩
    rfl

/-- A key write and a VIN write are Writes of a register that stores its word. -/
theorem eq_writeAt_of_writesKey_or_writesVin {e : HostEvent} (he : e.writesKey = true ∨ e.writesVin = true) :
    ∃ (r : Reg) (w : Word), r.writable = true ∧ r ≠ .cmd ∧ e = writeAt r.offset w := by
  rcases he with hkey | hvin
  · obtain ⟨r, w, hr, rfl⟩ := writesKey_iff.mp hkey
    exact ⟨r, w, hr.writable, hr.ne_cmd, rfl⟩
  · obtain ⟨w, rfl⟩ := writesVin_iff.mp hvin
    exact ⟨.vin, w, rfl, by decide, rfl⟩

/-- Every register that stores its word keeps nothing of the word before it. -/
theorem storeReg_storeReg_same (r : Reg) (w : Word) (b : Block) :
    storeReg r w (storeReg r w b) = storeReg r w b := by
  cases r <;> rfl

/-- Settles O34: each of these Writes is a `storeReg`, and storing a word twice is storing it once. -/
theorem registerWritesAreIdempotent : Obligations.RegisterWritesAreIdempotent := by
  unfold Obligations.RegisterWritesAreIdempotent
  intro s e he
  obtain ⟨r, w, hw, hcmd, rfl⟩ := eq_writeAt_of_writesKey_or_writesVin he
  refine ⟨_, _, runEvents_eq _ s, runEvents_eq _ s, ?_⟩
  simp only [stateAfterAll_cons, stateAfterAll_nil, stateAfter_block, blockAfter_writeAt hw hcmd,
    storeReg_storeReg_same]

end Sys2Proof.Machine
end

section
/-! Which accesses the block supports, and what the others are answered (R53, R55). -/

namespace Sys2Proof.Machine

theorem Reg.offset_aligned (r : Reg) : r.offset.toNat % 4 = 0 := by
  cases r <;> rfl

theorem Reg.offset_lt (r : Reg) : r.offset.toNat < 0x2C := by
  cases r <;> decide

/-- The writable registers are the ones below STATUS (R55). -/
theorem Reg.writable_iff (r : Reg) : r.writable = true ↔ r.offset.toNat < 0x18 := by
  cases r <;> decide

theorem Reg.eq_cmd_iff (r : Reg) : r = .cmd ↔ r.offset.toNat = 0x14 := by
  cases r <;> decide

/-- The map has no holes: an aligned offset below the unmapped range selects a register (R53, R55). -/
theorem regAt_isSome : ∀ off : Offset, off.toNat % 4 = 0 → off.toNat < 0x2C → (regAt off).isSome = true := by
  decide

theorem exists_offset_eq {off : Offset} (halign : off.toNat % 4 = 0) (hlt : off.toNat < 0x2C) :
    ∃ r : Reg, off = r.offset := by
  obtain ⟨r, hr⟩ := Option.isSome_iff_exists.mp (regAt_isSome off halign hlt)
  exact ⟨r, regAt_eq_some hr⟩

/-- CMD is the one register no Read is answered from (R51, R55). -/
theorem exists_readReg {r : Reg} (hr : r ≠ .cmd) (b : Block) : ∃ v, readReg r b = some v := by
  cases r with
  | cmd => exact absurd rfl hr
  | k11 | k12 | k21 | k22 | vin | status | det | detinv | ikey | vout => exact ⟨_, rfl⟩

/-- A Read that is of no register but perhaps CMD, or not of a whole word, is answered BusError (R53). -/
theorem readResponse_eq_busError_of_not_register {off : Offset} {bytes : Nat} {b : Block}
    (h : ∀ r : Reg, off = r.offset → bytes = 4 → r = .cmd) : readResponse off bytes b = .busError := by
  unfold readResponse
  by_cases hbytes : bytes = 4
  · rw [if_pos hbytes]
    cases hreg : regAt off with
    | none => rfl
    | some r =>
      obtain rfl := h r (regAt_eq_some hreg) hbytes
      rfl
  · rw [if_neg hbytes]

theorem step_read (off : Offset) (bytes : Nat) (s : State) :
    step (s.present (.read off bytes)) = .next (s.answer (readResponse off bytes s.block)) :=
  step_present _ s

/-- An unsupported Write changes nothing and is answered BusError (R53). -/
theorem step_write_refused {off : Offset} {bytes : Nat} {lanes : BitVec 4}
    (h : writeTarget off bytes lanes = none) (w : Word) (s : State) :
    step (s.present (.write off bytes lanes w)) = .next (s.answer .busError) := by
  have hblock : blockAfter (.write off bytes lanes w) s.block = s.block := by simp only [blockAfter, h]
  have hresp : responsesTo (.write off bytes lanes w) s.block = [.busError] := by simp [responsesTo, h]
  rw [step_present, stateAfter, hblock, hresp]
  rfl

/-- Settles O26: an access is supported where its offset is that of a register of the right kind; the registers fill the
aligned offsets below 0x2C, and the writable ones those below 0x18. -/
theorem unsupportedAccessesAnswerBusError : Obligations.UnsupportedAccessesAnswerBusError := by
  unfold Obligations.UnsupportedAccessesAnswerBusError
  intro s off bytes lanes w
  refine ⟨fun h => ?_, fun h => ?_, fun h => ?_, fun h => ?_⟩
  · have hresp : readResponse off bytes s.block = .busError := by
      refine readResponse_eq_busError_of_not_register fun r hoff hbytes => r.eq_cmd_iff.mpr ?_
      have haligned := r.offset_aligned
      have hbelow := r.offset_lt
      subst hoff
      omega
    rw [step_read, hresp]
    rfl
  · obtain ⟨halign, hlt, hcmd, rfl⟩ : off.toNat % 4 = 0 ∧ off.toNat < 0x2C ∧ off.toNat ≠ 0x14 ∧ bytes = 4 := by omega
    obtain ⟨r, rfl⟩ := exists_offset_eq halign hlt
    obtain ⟨v, hv⟩ := exists_readReg (mt r.eq_cmd_iff.mp hcmd) s.block
    exact ⟨v, step_readAt hv⟩
  · refine step_write_refused (Option.eq_none_iff_forall_ne_some.mpr fun r htarget => ?_) w s
    obtain ⟨hbytes, hlanes, rfl, hw⟩ := writeTarget_eq_some.mp htarget
    have haligned := r.offset_aligned
    have hbelow := r.writable_iff.mp hw
    rcases h with h | h | h | h
    · omega
    · omega
    · exact h hbytes
    · exact h hlanes
  · push Not at h
    obtain ⟨halign, hlt, rfl, rfl⟩ := h
    obtain ⟨r, rfl⟩ := exists_offset_eq halign (by omega)
    refine ⟨_, step_present _ s, ?_⟩
    simp [responsesTo, writeTarget_offset (r.writable_iff.mpr hlt)]

end Sys2Proof.Machine
end

section
/-! The read column of the register map, as numbers (R51, R55, R74 to R78). -/

namespace Sys2Proof.Machine

/-- The number of two words side by side. -/
theorem toNat_append_eq_mul_add {m n : Nat} (x : BitVec m) (y : BitVec n) :
    (x ++ y).toNat = x.toNat * 2 ^ n + y.toNat := by
  rw [BitVec.toNat_append, ← Nat.shiftLeft_add_eq_or_of_lt y.isLt, Nat.shiftLeft_eq]

/-- The IKEY layout as a number: entry `j` stands at bit `8 * j` (R77). -/
theorem ikeyWord_toNat (i : Matrix2) :
    (ikeyWord i).toNat = (symbolOf i.m11).toNat + 2 ^ 8 * (symbolOf i.m12).toNat +
      2 ^ 16 * (symbolOf i.m21).toNat + 2 ^ 24 * (symbolOf i.m22).toNat := by
  have h : (ikeyWord i).toNat = (0#3 ++ symbolOf i.m22 ++ 0#3 ++ symbolOf i.m21 ++ 0#3 ++ symbolOf i.m12 ++ 0#3 ++
      symbolOf i.m11 : BitVec (3 + 5 + 3 + 5 + 3 + 5 + 3 + 5)).toNat := rfl
  rw [h]
  simp only [toNat_append_eq_mul_add, BitVec.toNat_ofNat]
  omega

theorem zext32_toNat (v : Symbol) : (zext32 v).toNat = v.toNat :=
  BitVec.toNat_setWidth_of_le (by decide)

/-- An entry of the inverse key is a residue modulo 26, so its five bits hold it (R97). -/
theorem symbolOf_emod_toNat (x : Int) : ((symbolOf (x % 26)).toNat : Int) = x % 26 :=
  symbolInt_symbolOf _ (by omega) (by omega)

/-- The word IKEY reads while VALID = 1: the four entries of the inverse key (R32, R97). -/
theorem ikeyView_toNat {b : Block} (hvalid : b.valid = true) :
    ((ikeyView b).toNat : Int) = (b.detinv.toNat * b.k22.toInt) % 26 +
      2 ^ 8 * ((b.detinv.toNat * -b.k12.toInt) % 26) + 2 ^ 16 * ((b.detinv.toNat * -b.k21.toInt) % 26) +
      2 ^ 24 * ((b.detinv.toNat * b.k11.toInt) % 26) := by
  rw [ikeyView, if_pos hvalid, invkey26_eq, ikeyWord_toNat]
  push_cast [symbolOf_emod_toNat]
  rfl

/-- IKEY reads 0 while VALID = 0 (R32). -/
theorem ikeyView_of_not_valid {b : Block} (hvalid : b.valid = false) : ikeyView b = 0#32 := by
  rw [ikeyView, hvalid]
  rfl

/-- A Read of a key register answers the word it holds (R73). -/
theorem step_readAt_key {r : Reg} {w : Word} {s : State} (hr : readReg r s.block = some (word32 (sint32 w))) :
    step (s.present (readAt r.offset)) = .next (s.answer (.okWord w)) := by
  rw [step_readAt hr, word32_sint32]

/-- Settles O28: each Read is `step_readAt` of its register, and the layouts give the numbers. -/
theorem readsReturnTheMapAndChangeNothing : Obligations.ReadsReturnTheMapAndChangeNothing := by
  unfold Obligations.ReadsReturnTheMapAndChangeNothing
  intro s read
  refine ⟨step_readAt_key (r := .k11) rfl, step_readAt_key (r := .k12) rfl, step_readAt_key (r := .k21) rfl,
    step_readAt_key (r := .k22) rfl,
    ⟨_, step_readAt (r := .vin) rfl, pairWord_toNat s.block.v1 s.block.v2⟩,
    ⟨_, step_readAt (r := .status) rfl, statusWord_toNat s.block⟩,
    ⟨_, step_readAt (r := .det) rfl, zext32_toNat s.block.det⟩,
    ⟨_, step_readAt (r := .detinv) rfl, zext32_toNat s.block.detinv⟩,
    ⟨_, step_readAt (r := .ikey) rfl, fun hvalid => ?_, fun hvalid _ _ => ikeyView_toNat hvalid⟩,
    ⟨_, step_readAt (r := .vout) rfl, pairWord_toNat s.block.r1 s.block.r2⟩⟩
  rw [ikeyView_of_not_valid hvalid]
  rfl

end Sys2Proof.Machine
end

section
/-! The command words (R71, R72) and the step of a Write to CMD (R72, R80). -/

namespace Sys2Proof.Machine

/-- The ZERO field adds nothing to the number of a command word. -/
theorem encode_toNat (i : Instr) : (encode i).toNat = (opcode i).toNat := by
  cases i <;> rfl

/-- The decoder is the inverse of the encoder on whole words (R71). -/
theorem decode_eq_command_iff {w : Word} {i : Instr} : decode w = .command i ↔ w = encode i :=
  ⟨eq_encode_of_decode, fun h => h ▸ decode_encode i⟩

theorem decode_eq_command_iff_toNat {w : Word} {i : Instr} :
    decode w = .command i ↔ w.toNat = (opcode i).toNat := by
  rw [decode_eq_command_iff, ← encode_toNat, BitVec.toNat_inj]

/-- The legal words are the three of the opcode map (R72). -/
theorem exists_decode_eq_command_iff {w : Word} :
    (∃ i, decode w = .command i) ↔ w.toNat = 1 ∨ w.toNat = 2 ∨ w.toNat = 3 := by
  simp only [decode_eq_command_iff_toNat]
  constructor
  · rintro ⟨i, hi⟩
    cases i with
    | validate => exact .inl hi
    | enc => exact .inr (.inl hi)
    | dec => exact .inr (.inr hi)
  · rintro (h | h | h)
    · exact ⟨.validate, h⟩
    · exact ⟨.enc, h⟩
    · exact ⟨.dec, h⟩

/-- Settles O2: a word decodes to a command exactly when it is that command's encoding, whose number is the opcode. -/
theorem decodingMatchesTheWholeWord : Obligations.DecodingMatchesTheWholeWord := by
  unfold Obligations.DecodingMatchesTheWholeWord
  refine ⟨fun i _ => decode_encode i, fun w i h => ?_, fun _ => exists_decode_eq_command_iff⟩
  have hop : (opcode i).toNat < 16 := (opcode i).isLt
  have hw := decode_eq_command_iff_toNat.mp h
  exact ⟨decode_eq_command_iff.mp h, by omega, by omega⟩

/-- The step of a Write to CMD, for every word: the command or the error, and the response Ok (R72, R80). -/
theorem step_cmdWrite {s : State} {rest : List HostEvent} {w : Word} (h : s.port = cmdWrite w :: rest) :
    step s = .next { block := afterCmdWord w s.block, port := rest, answers := .ok :: s.answers } :=
  step_cons h

/-- A word that decodes to a command is answered with that command's next state and Ok (R72). -/
theorem step_cmdWrite_command {s : State} {rest : List HostEvent} {w : Word} {i : Instr}
    (h : s.port = cmdWrite w :: rest) (hw : decode w = .command i) :
    ∃ t, exec i { s with port := rest } = .next t ∧ step s = .next { t with answers := .ok :: s.answers } := by
  refine ⟨_, exec_eq i _, ?_⟩
  rw [step_cmdWrite h, afterCmdWord, hw]
  rfl

/-- A reserved word sets ERR to ILLEGAL_CMD and changes nothing else (R80). -/
theorem afterCmdWord_reserved {w : Word} (hw : ¬ ∃ i, decode w = .command i) (b : Block) :
    afterCmdWord w b = b.setErr .illegalCmd := by
  unfold afterCmdWord
  cases hd : decode w with
  | command i => exact absurd ⟨i, hd⟩ hw
  | reserved r => rfl

/-- Settles O4: the words 1, 2 and 3 decode to the three commands, and every other word is reserved. -/
theorem commandWriteFollowsTheOpcodeMap : Obligations.CommandWriteFollowsTheOpcodeMap := by
  unfold Obligations.CommandWriteFollowsTheOpcodeMap
  intro s rest w hport
  have run {i : Instr} (h : w.toNat = (opcode i).toNat) := step_cmdWrite_command hport (decode_eq_command_iff_toNat.mpr h)
  refine ⟨run (i := .validate), run (i := .enc), run (i := .dec), fun h1 h2 h3 => ?_⟩
  have hreserved : ¬ ∃ i, decode w = .command i := by
    rw [exists_decode_eq_command_iff]
    omega
  rw [step_cmdWrite hport, afterCmdWord_reserved hreserved]
  rfl

end Sys2Proof.Machine
end

section
/-! The layouts of the written registers: the key words (R73), VIN (R74), and VOUT written back to VIN (R78). -/

namespace Sys2Proof.Machine

/-- The value of a word by its number: bit 31 counts as `-2^31` (R73). -/
theorem sint32_eq_ite (w : Word) :
    sint32 w = if w.toNat < 2 ^ 31 then (w.toNat : Int) else w.toNat - 2 ^ 32 := by
  rw [sint32, BitVec.toInt_eq_toNat_cond]
  split <;> split <;> omega

/-- Settles O31: `sint32_eq_ite` is the value of every word, and `word32` and `sint32` are inverse to each other. -/
theorem keyWordsAreTwosComplement : Obligations.KeyWordsAreTwosComplement := by
  unfold Obligations.KeyWordsAreTwosComplement
  exact ⟨sint32_eq_ite, word32_sint32, sint32_word32, by decide⟩

/-- The two fields of a word without the bits beside them (R74). -/
theorem pairWord_fields_toNat (w : Word) :
    (pairWord (firstOfPair w) (secondOfPair w)).toNat = w.toNat % 2 ^ 5 + 2 ^ 8 * (w.toNat / 2 ^ 8 % 2 ^ 5) := by
  rw [pairWord_toNat, firstOfPair_toNat, secondOfPair_toNat]
  rfl

/-- Settles O32: the Write is `setVin`, and VIN reads the pair word of the two fields. -/
theorem vinWritesStoreBothSymbols : Obligations.VinWritesStoreBothSymbols := by
  unfold Obligations.VinWritesStoreBothSymbols
  intro s w
  refine ⟨firstOfPair w, secondOfPair w, firstOfPair_toNat w, secondOfPair_toNat w,
    _, step_writeAt (r := .vin) rfl (by decide) w s, rfl, _, step_readAt (r := .vin) rfl, pairWord_fields_toNat w⟩

/-- Writing a pair word to VIN stores its two symbols (R74, R78). -/
theorem setVin_pairWord (v1 v2 : Symbol) (b : Block) :
    b.setVin (pairWord v1 v2) = { b with v1 := v1, v2 := v2 } := by
  rw [Block.setVin, firstOfPair_pairWord, secondOfPair_pairWord]

/-- Settles O33: VOUT reads the pair word of R1 and R2, which VIN takes apart again. -/
theorem voutFeedsBackIntoVin : Obligations.VoutFeedsBackIntoVin := by
  unfold Obligations.VoutFeedsBackIntoVin
  intro s
  refine ⟨pairWord s.block.r1 s.block.r2, _, runEvents_eq _ s, rfl, pairWord_toNat _ _,
    _, runEvents_eq _ _, ?_⟩
  exact (blockAfter_vinWrite _ s.block).trans (setVin_pairWord _ _ _)

end Sys2Proof.Machine
end

section
/-! The remainder of every unit (R90): `floormod` as the floor formula, as the one remainder, and as the document's formula. -/

namespace Sys2Proof.Machine

theorem floormod_eq_sub_floor (x : Int) {m : Int} (hm : 0 < m) :
    floormod x m = x - m * ⌊(x : ℚ) / (m : ℚ)⌋ := by
  rw [Int.floor_div_cast_of_nonneg hm.le, Int.floor_intCast, floormod, Int.fdiv_eq_ediv_of_nonneg x hm.le]

theorem floormod_range (x : Int) {m : Int} (hm : 0 < m) : 0 ≤ floormod x m ∧ floormod x m < m := by
  rw [floormod_eq_emod x hm]
  exact ⟨Int.emod_nonneg x hm.ne', Int.emod_lt_of_pos x hm⟩

theorem dvd_sub_floormod (x m : Int) : m ∣ x - floormod x m :=
  ⟨Int.fdiv x m, by rw [floormod, sub_sub_cancel]⟩

/-- A number in 0 to `m - 1` that differs from `x` by a multiple of `m` is the remainder of `x` (R90). -/
theorem eq_floormod_of_dvd_sub {x m r : Int} (h0 : 0 ≤ r) (h1 : r < m) (hdvd : m ∣ x - r) : r = floormod x m := by
  have hmod : r % m = x % m := Int.modEq_iff_dvd.mpr hdvd
  rw [floormod_eq_emod x (h0.trans_lt h1), ← hmod, Int.emod_eq_of_lt h0 h1]

/-- The document's formula: the truncating remainder is above `-m`, so adding `m` makes it positive (R90). -/
theorem floormod_eq_tmod (x : Int) {m : Int} (hm : 0 < m) : floormod x m = Int.tmod (Int.tmod x m + m) m := by
  have hpos : 0 ≤ Int.tmod x m + m := by
    have := Int.lt_tmod_of_pos x hm
    omega
  rw [floormod_eq_emod x hm, Int.tmod_eq_emod_of_nonneg hpos, Int.add_emod_right, Int.tmod_def, Int.sub_mul_emod_self_left]

/-- Settles O14: the three readings of `floormod`, and the nine values of the rule. -/
theorem floormodIsTheNonNegativeRemainder : Obligations.FloormodIsTheNonNegativeRemainder := by
  unfold Obligations.FloormodIsTheNonNegativeRemainder
  refine ⟨fun x m hm => ⟨floormod_eq_sub_floor x hm, ?_, fun r => eq_floormod_of_dvd_sub, floormod_eq_tmod x hm⟩, by decide⟩
  obtain ⟨h0, h1⟩ := floormod_range x hm
  exact ⟨h0, h1, dvd_sub_floormod x m⟩

end Sys2Proof.Machine
end

section
/-! Congruent keys (R91): every unit takes keys with equal residues modulo 26 to the same result. -/

namespace Sys2Proof.Machine

/-- The keys whose entries have equal residues modulo 26 (R91). -/
structure Matrix2.Congruent (k k' : Matrix2) : Prop where
  m11 : k.m11 ≡ k'.m11 [ZMOD 26]
  m12 : k.m12 ≡ k'.m12 [ZMOD 26]
  m21 : k.m21 ≡ k'.m21 [ZMOD 26]
  m22 : k.m22 ≡ k'.m22 [ZMOD 26]

theorem det26_congr {k k' : Matrix2} (h : k.Congruent k') : det26 k = det26 k' := by
  rw [det26_eq, det26_eq]
  exact (h.m11.mul h.m22).sub (h.m12.mul h.m21)

theorem invkey26_congr {k k' : Matrix2} (h : k.Congruent k') (di : Int) : invkey26 k di = invkey26 k' di := by
  simp only [invkey26_eq, Matrix2.mk.injEq]
  exact ⟨h.m22.mul_left di, h.m12.neg.mul_left di, h.m21.neg.mul_left di, h.m11.mul_left di⟩

/-- The MVM unit on keys and pairs with equal residues (R91). -/
theorem mvm26_congr {m m' : Matrix2} (h : m.Congruent m') {v1 v1' v2 v2' : Int}
    (h1 : v1 ≡ v1' [ZMOD 26]) (h2 : v2 ≡ v2' [ZMOD 26]) : mvm26 m v1 v2 = mvm26 m' v1' v2' := by
  rw [mvm26_eq, mvm26_eq, Prod.mk.injEq]
  exact ⟨(h.m11.mul h1).add (h.m12.mul h2), (h.m21.mul h1).add (h.m22.mul h2)⟩

/-- Reducing the operands first gives the same remainder (R91). -/
theorem floormod_reduce_first (a b c : Int) :
    floormod (a * b + c) 26 = floormod (floormod a 26 * floormod b 26 + floormod c 26) 26 := by
  simp only [floormod_M]
  exact (((Int.mod_modEq a 26).mul (Int.mod_modEq b 26)).add (Int.mod_modEq c 26)).symm

theorem abs_sint32_le (w : Word) : |sint32 w| ≤ 2 ^ 31 :=
  abs_le.mpr ⟨BitVec.le_toInt w, BitVec.toInt_lt.le⟩

theorem abs_sint32_mul_le (a b : Word) : |sint32 a * sint32 b| ≤ 2 ^ 62 :=
  calc |sint32 a * sint32 b| = |sint32 a| * |sint32 b| := abs_mul _ _
    _ ≤ 2 ^ 31 * 2 ^ 31 := mul_le_mul (abs_sint32_le a) (abs_sint32_le b) (abs_nonneg _) (by norm_num)
    _ = 2 ^ 62 := by norm_num

/-- Settles O15: the units on congruent keys, and a determinant of two products of 32-bit entries. -/
theorem onlyResiduesMatterToTheUnits : Obligations.OnlyResiduesMatterToTheUnits := by
  unfold Obligations.OnlyResiduesMatterToTheUnits
  refine ⟨floormod_reduce_first, fun k k' h11 h12 h21 h22 => ?_, fun a b c d => ?_⟩
  · have h : k.Congruent k' := ⟨h11, h12, h21, h22⟩
    exact ⟨det26_congr h, invkey26_congr h, fun v1 v2 => mvm26_congr h rfl rfl⟩
  · obtain ⟨had0, had1⟩ := abs_le.mp (abs_sint32_mul_le a d)
    obtain ⟨hbc0, hbc1⟩ := abs_le.mp (abs_sint32_mul_le b c)
    constructor <;> omega

end Sys2Proof.Machine
end

section
/-! The INV unit (R94, R95): the search finds the one inverse there is. -/

namespace Sys2Proof.Machine

/-- A number with an inverse modulo 26 has no factor in common with 26. -/
theorem gcd_eq_one_of_mul_mod {d x : Int} (h : (d * x) % 26 = 1) : Int.gcd d 26 = 1 := by
  rw [← Int.isCoprime_iff_gcd_eq_one]
  refine ⟨x, -(d * x / 26), ?_⟩
  rw [mul_comm x d]
  omega

/-- Two numbers in 0 to 25 that are both inverse to `d` are the same: each is `x * d * y` modulo 26 (R95 (b)). -/
theorem inverse_unique {d x y : Int} (hx : (d * x) % 26 = 1) (hy : (d * y) % 26 = 1)
    (hx0 : 0 ≤ x) (hx25 : x ≤ 25) (hy0 : 0 ≤ y) (hy25 : y ≤ 25) : x = y := by
  have hx1 : d * x ≡ 1 [ZMOD 26] := hx
  have hy1 : d * y ≡ 1 [ZMOD 26] := hy
  have hxy : x ≡ y [ZMOD 26] :=
    calc x = x * 1 := (mul_one x).symm
      _ ≡ x * (d * y) [ZMOD 26] := hy1.symm.mul_left x
      _ = y * (d * x) := by ring
      _ ≡ y * 1 [ZMOD 26] := hx1.mul_left y
      _ = y := mul_one y
  have : x % 26 = y % 26 := hxy
  omega

section
variable {d : Int} (h0 : 0 ≤ d) (h25 : d ≤ 25)
include h0 h25

/-- Any inverse in 1 to 25 is the one the INV unit finds (R95 (b)). -/
theorem eq_inv26_of_mul_mod {x : Int} (hx1 : 1 ≤ x) (hx25 : x ≤ 25) (h : (d * x) % 26 = 1) : x = inv26 d := by
  have hne : inv26 d ≠ 0 := (inv26_ne_zero_iff d h0 h25).mpr (gcd_eq_one_of_mul_mod h)
  obtain ⟨hi0, hi25⟩ := inv26_range d h0 h25
  exact inverse_unique h (mul_inv26 d h0 h25 hne) (by omega) hx25 hi0 hi25

/-- The marker 0 says that no candidate passes the test (R94). -/
theorem inv26_eq_zero_iff : inv26 d = 0 ↔ ∀ x : Int, 1 ≤ x → x ≤ 25 → (d * x) % 26 ≠ 1 := by
  obtain ⟨hi0, hi25⟩ := inv26_range d h0 h25
  constructor
  · intro hzero x hx1 hx25 hx
    have := eq_inv26_of_mul_mod h0 h25 hx1 hx25 hx
    omega
  · intro hnone
    by_contra hne
    exact hnone (inv26 d) (by omega) hi25 (mul_inv26 d h0 h25 hne)

/-- `d` is inverse to its inverse (R95 (c)). -/
theorem inv26_inv26 (hne : inv26 d ≠ 0) : inv26 (inv26 d) = d := by
  obtain ⟨hi0, hi25⟩ := inv26_range d h0 h25
  have hmul := mul_inv26 d h0 h25 hne
  have hd : d ≠ 0 := fun hd => by simp [hd] at hmul
  rw [mul_comm] at hmul
  exact (eq_inv26_of_mul_mod hi0 hi25 (by omega) h25 hmul).symm

/-- A nonzero determinant without an inverse shares exactly one of the prime factors of 26 with it (R95). -/
theorem gcd_of_inv26_eq_zero (hd : d ≠ 0) (hzero : inv26 d = 0) : Int.gcd d 26 = 2 ∨ Int.gcd d 26 = 13 :=
  forall_det (P := fun d => d ≠ 0 → inv26 d = 0 → Int.gcd d 26 = 2 ∨ Int.gcd d 26 = 13) (by decide) d h0 h25 hd hzero

end

/-- Settles O16: the facts above for each determinant, and the table. -/
theorem invUnitFindsTheUniqueInverse : Obligations.InvUnitFindsTheUniqueInverse := by
  unfold Obligations.InvUnitFindsTheUniqueInverse
  refine ⟨fun d h0 h25 => ⟨inv26_range d h0 h25, inv26_ne_zero_iff d h0 h25, inv26_eq_zero_iff h0 h25, fun hne => ?_,
    gcd_of_inv26_eq_zero h0 h25⟩, inv26_table⟩
  exact ⟨mul_inv26 d h0 h25 hne, inv26_inv26 h0 h25 hne, fun x => eq_inv26_of_mul_mod h0 h25⟩

/-- Settles O20: `det26` is the determinant of the gcd condition, and the all-zero key has gcd 26. -/
theorem keysWithGcdOneHaveAnInverse : Obligations.KeysWithGcdOneHaveAnInverse := by
  unfold Obligations.KeysWithGcdOneHaveAnInverse
  intro a b c d hgcd
  obtain ⟨h0, h25⟩ := det26_range ⟨a, b, c, d⟩
  have hne : inv26 (det26 ⟨a, b, c, d⟩) ≠ 0 := by
    rw [inv26_ne_zero_iff _ h0 h25, det26_eq]
    exact hgcd
  refine ⟨hne, ?_, ?_⟩
  · rw [floormod_M]
    exact mul_inv26 _ h0 h25 hne
  · rintro ⟨rfl, rfl, rfl, rfl⟩
    exact absurd hgcd (by decide)

end Sys2Proof.Machine
end

section
/-! The MVM unit and the inverse key (R96, R97, R99): multiplying twice is multiplying by the product of the matrices, and the
inverse key times the key is the unit matrix modulo 26. -/

namespace Sys2Proof.Machine

/-- The unit matrix leaves a pair of symbols as it is (R96). -/
theorem mvm26_one {v1 v2 : Int} (h1 : 0 ≤ v1) (h1' : v1 ≤ 25) (h2 : 0 ≤ v2) (h2' : v2 ≤ 25) :
    mvm26 ⟨1, 0, 0, 1⟩ v1 v2 = (v1, v2) := by
  simp only [mvm26_eq, Prod.mk.injEq]
  omega

/-- So does a multiple of it by a number that is 1 modulo 26. -/
theorem mvm26_of_modEq_one {x v1 v2 : Int} (hx : x ≡ 1 [ZMOD 26])
    (h1 : 0 ≤ v1) (h1' : v1 ≤ 25) (h2 : 0 ≤ v2) (h2' : v2 ≤ 25) : mvm26 ⟨x, 0, 0, x⟩ v1 v2 = (v1, v2) := by
  have hone : Matrix2.Congruent ⟨x, 0, 0, x⟩ ⟨1, 0, 0, 1⟩ := ⟨hx, rfl, rfl, hx⟩
  rw [mvm26_congr hone rfl rfl, mvm26_one h1 h1' h2 h2']

theorem mvm26_zero (m : Matrix2) : mvm26 m 0 0 = (0, 0) := by
  simp [mvm26_eq]

/-- Settles O18: the equations and ranges of the units, and the values of the rules. -/
theorem unitsComputeTheReducedFormulas : Obligations.UnitsComputeTheReducedFormulas := by
  unfold Obligations.UnitsComputeTheReducedFormulas
  exact ⟨fun a b c d => ⟨det26_eq _, det26_range _⟩, fun a b c d v1 v2 => mvm26_eq _ v1 v2, mvm26_zero,
    fun v1 v2 => mvm26_one, fun a b c d di _ _ => invkey26_eq _ di, by decide⟩

/-- The product of two matrices; `mvm26_mvm26` ties it to the MVM unit. -/
def Matrix2.mul (m n : Matrix2) : Matrix2 where
  m11 := m.m11 * n.m11 + m.m12 * n.m21
  m12 := m.m11 * n.m12 + m.m12 * n.m22
  m21 := m.m21 * n.m11 + m.m22 * n.m21
  m22 := m.m21 * n.m12 + m.m22 * n.m22

/-- Two passes of the MVM unit are one pass with the product of the matrices. -/
theorem mvm26_mvm26 (m n : Matrix2) (v1 v2 : Int) :
    mvm26 m (mvm26 n v1 v2).1 (mvm26 n v1 v2).2 = mvm26 (m.mul n) v1 v2 := by
  have hred (i : Int) := Int.mod_modEq i 26
  rw [mvm26_eq n]
  calc mvm26 m ((n.m11 * v1 + n.m12 * v2) % 26) ((n.m21 * v1 + n.m22 * v2) % 26)
      = mvm26 m (n.m11 * v1 + n.m12 * v2) (n.m21 * v1 + n.m22 * v2) :=
        mvm26_congr ⟨rfl, rfl, rfl, rfl⟩ (hred _) (hred _)
    _ = mvm26 (m.mul n) v1 v2 := by
        simp only [mvm26_eq, Matrix2.mul]
        congr 2 <;> ring

/-- The determinant before its reduction (R92). -/
def Matrix2.rawDet (k : Matrix2) : Int := k.m11 * k.m22 - k.m12 * k.m21

theorem det26_modEq_rawDet (k : Matrix2) : det26 k ≡ k.rawDet [ZMOD 26] := by
  rw [det26_eq]
  exact Int.mod_modEq _ 26

/-- The inverse the INV unit finds undoes the determinant before its reduction as well. -/
theorem inv26_mul_rawDet_modEq {k : Matrix2} (hne : inv26 (det26 k) ≠ 0) :
    inv26 (det26 k) * k.rawDet ≡ 1 [ZMOD 26] := by
  obtain ⟨h0, h25⟩ := det26_range k
  calc inv26 (det26 k) * k.rawDet
      ≡ inv26 (det26 k) * det26 k [ZMOD 26] := (det26_modEq_rawDet k).symm.mul_left _
    _ = det26 k * inv26 (det26 k) := mul_comm _ _
    _ ≡ 1 [ZMOD 26] := mul_inv26 _ h0 h25 hne

/-- `di` times the adjugate of `k`: the inverse key before its reduction (R97), see `mvm26_invkey26`. -/
def Matrix2.scaledAdjugate (k : Matrix2) (di : Int) : Matrix2 :=
  ⟨di * k.m22, di * -k.m12, di * -k.m21, di * k.m11⟩

theorem mvm26_invkey26 (k : Matrix2) (di v1 v2 : Int) :
    mvm26 (invkey26 k di) v1 v2 = mvm26 (k.scaledAdjugate di) v1 v2 := by
  rw [invkey26_eq]
  exact mvm26_congr ⟨Int.mod_modEq _ _, Int.mod_modEq _ _, Int.mod_modEq _ _, Int.mod_modEq _ _⟩ rfl rfl

theorem scaledAdjugate_mul (k : Matrix2) (di : Int) :
    (k.scaledAdjugate di).mul k = ⟨di * k.rawDet, 0, 0, di * k.rawDet⟩ := by
  simp only [Matrix2.mul, Matrix2.scaledAdjugate, Matrix2.rawDet, Matrix2.mk.injEq]
  refine ⟨?_, ?_, ?_, ?_⟩ <;> ring

theorem mul_scaledAdjugate (k : Matrix2) (di : Int) :
    k.mul (k.scaledAdjugate di) = ⟨di * k.rawDet, 0, 0, di * k.rawDet⟩ := by
  simp only [Matrix2.mul, Matrix2.scaledAdjugate, Matrix2.rawDet, Matrix2.mk.injEq]
  refine ⟨?_, ?_, ?_, ?_⟩ <;> ring

/-- Settles O19: in either order the product of the two matrices is the determinant times its inverse, which is 1 modulo 26. -/
theorem inverseKeyUndoesTheKey : Obligations.InverseKeyUndoesTheKey := by
  unfold Obligations.InverseKeyUndoesTheKey
  intro k v1 v2 hne h1 h1' h2 h2'
  have hunit := mvm26_of_modEq_one (inv26_mul_rawDet_modEq hne) h1 h1' h2 h2'
  constructor
  · rw [mvm26_invkey26, mvm26_mvm26, scaledAdjugate_mul, hunit]
  · rw [mvm26_invkey26, mvm26_mvm26, mul_scaledAdjugate, hunit]

end Sys2Proof.Machine
end

section
/-! VALIDATE (R110 to R112): the four elements it writes are the outputs of the DET and INV units and the verdict of the key checks. -/

namespace Sys2Proof.Machine

/-- The step of a Write of a command's word: the command, and the response Ok (R72). -/
theorem step_command (i : Instr) (s : State) :
    step (s.present (cmdWrite (encode i))) = .next ((s.withBlock (commanded i s.block)).answer .ok) := by
  rw [step_cmdWrite (rest := s.port) rfl, ← blockAfter_cmdWrite, blockAfter_command]
  rfl

theorem keyCheck_zero : keyCheck ⟨0, 0, 0, 0⟩ = .keyAllZero := rfl

/-- The code of a key that passes the all-zero test is decided by its determinant (R110, R112). -/
theorem keyCheck_of_ne_zero {k : Matrix2} (hne : k ≠ ⟨0, 0, 0, 0⟩) :
    (det26 k = 0 → keyCheck k = .keySingular) ∧
    (det26 k ≠ 0 → inv26 (det26 k) = 0 → keyCheck k = .keyNonInvertible) ∧
    (det26 k ≠ 0 → inv26 (det26 k) ≠ 0 → keyCheck k = .ok) := by
  rcases keyCheck_cases k with ⟨hzero, -⟩ | ⟨-, hdet, hc⟩ | ⟨-, hdet, hinv, hc⟩ | ⟨-, hdet, hinv, hc⟩
  · exact absurd hzero hne
  · exact ⟨fun _ => hc, fun h => absurd hdet h, fun h => absurd hdet h⟩
  · exact ⟨fun h => absurd h hdet, fun _ _ => hc, fun _ h => absurd hinv h⟩
  · exact ⟨fun h => absurd h hdet, fun _ h => absurd h hinv, fun _ _ => hc⟩

/-- DET after VALIDATE is the output of the DET unit (R110). -/
theorem validate_det_toNat (b : Block) : ((commanded .validate b).det.toNat : Int) = det26 b.key :=
  symbolInt_det b.key

/-- DETINV after VALIDATE is the output of the INV unit (R110). -/
theorem validate_detinv_toNat (b : Block) : ((commanded .validate b).detinv.toNat : Int) = inv26 (det26 b.key) :=
  symbolInt_inv b.key

/-- ERR and VALID after VALIDATE, by the code of the key checks (R110). -/
theorem validate_verdict {b : Block} {e : ErrCode} (h : keyCheck b.key = e) :
    (commanded .validate b).err = e ∧ (commanded .validate b).valid = (e == .ok) := by
  subst h
  exact ⟨rfl, rfl⟩

/-- Settles O5: DET and DETINV hold the units' outputs in range, and ERR is the code of the key checks on them. -/
theorem validateWritesTheUnitOutputsAndTheVerdict : Obligations.ValidateWritesTheUnitOutputsAndTheVerdict := by
  unfold Obligations.ValidateWritesTheUnitOutputsAndTheVerdict
  intro s
  have hdet := validate_det_toNat s.block
  have hdetinv := validate_detinv_toNat s.block
  refine ⟨commanded .validate s.block, exec_eq _ s, step_command .validate s, ⟨rfl, rfl, rfl, rfl, rfl, rfl, rfl, rfl⟩,
    hdet.trans (det26_eq _), hdet ▸ hdetinv, fun hzero => ?_, fun hne => ?_, beq_iff_eq⟩
  · exact (validate_verdict ((key_eq_zero_iff s.block).mpr hzero ▸ keyCheck_zero)).1
  · obtain ⟨hsingular, hnonInvertible, hok⟩ := keyCheck_of_ne_zero (mt (key_eq_zero_iff s.block).mp hne)
    exact ⟨fun hd => hsingular (by omega), fun hd hi => hnonInvertible (by omega) (by omega),
      fun hd hi => hok (by omega) (by omega)⟩

/-- The all-zero key has determinant 0. -/
theorem ne_zero_of_det26_ne_zero {k : Matrix2} (hdet : det26 k ≠ 0) : k ≠ ⟨0, 0, 0, 0⟩ := by
  rintro rfl
  exact hdet rfl

/-- A key whose determinant has no factor in common with 26 passes the checks (R112 (a)). -/
theorem keyCheck_of_gcd_eq_one {k : Matrix2} (hgcd : Int.gcd (det26 k) 26 = 1) : keyCheck k = .ok := by
  obtain ⟨h0, h25⟩ := det26_range k
  have hdet : det26 k ≠ 0 := fun h => by simp [h] at hgcd
  exact (keyCheck_of_ne_zero (ne_zero_of_det26_ne_zero hdet)).2.2 hdet ((inv26_ne_zero_iff _ h0 h25).mpr hgcd)

/-- A key whose nonzero determinant has a factor in common with 26 is not invertible (R112 (c)). -/
theorem keyCheck_of_gcd_ne_one {k : Matrix2} (hdet : det26 k ≠ 0) (hgcd : Int.gcd (det26 k) 26 ≠ 1) :
    keyCheck k = .keyNonInvertible := by
  obtain ⟨h0, h25⟩ := det26_range k
  exact (keyCheck_of_ne_zero (ne_zero_of_det26_ne_zero hdet)).2.1 hdet (not_not.mp (mt (inv26_ne_zero_iff _ h0 h25).mp hgcd))

/-- The greatest common divisors a determinant can have with 26 (R112). -/
theorem gcd_det26_cases (k : Matrix2) :
    Int.gcd (det26 k) 26 = 1 ∨ det26 k = 0 ∨ Int.gcd (det26 k) 26 = 2 ∨ Int.gcd (det26 k) 26 = 13 := by
  obtain ⟨h0, h25⟩ := det26_range k
  by_cases hinv : inv26 (det26 k) = 0
  · by_cases hdet : det26 k = 0
    · exact .inr (.inl hdet)
    · exact .inr (.inr (gcd_of_inv26_eq_zero h0 h25 hdet hinv))
  · exact .inl ((inv26_ne_zero_iff _ h0 h25).mp hinv)

/-- Settles O6: the gcd decides the code of the key checks, and VALIDATE ends with that code. -/
theorem validateOutcomeIsDecidedByTheGcd : Obligations.ValidateOutcomeIsDecidedByTheGcd := by
  unfold Obligations.ValidateOutcomeIsDecidedByTheGcd
  intro s d hd
  obtain rfl : d = det26 s.block.key := hd.trans (det26_eq s.block.key).symm
  refine ⟨_, exec_eq _ s, fun hgcd => ?_, fun hdet hne => ?_, fun hzero => ?_, fun hdet hgcd => ?_, gcd_det26_cases _⟩
  · have hok := keyCheck_of_gcd_eq_one hgcd
    obtain ⟨herr, hvalid⟩ := validate_verdict hok
    obtain ⟨-, -, -, -, -, hprod, -⟩ := holdsValidatedKey_in_words (validate_holdsValidatedKey hok)
    exact ⟨herr, hvalid, hprod⟩
  · exact validate_verdict ((keyCheck_of_ne_zero hne).1 hdet)
  · exact validate_verdict (hzero ▸ keyCheck_zero)
  · exact validate_verdict (keyCheck_of_gcd_ne_one hdet (by omega))

/-- Settles O7: equal key words are equal keys, and each written element is a function of the key. -/
theorem validateReadsOnlyTheKey : Obligations.ValidateReadsOnlyTheKey := by
  unfold Obligations.ValidateReadsOnlyTheKey
  intro s s' h11 h12 h21 h22
  have hkey : s.block.key = s'.block.key := by simp only [Block.key, h11, h12, h21, h22]
  refine ⟨_, _, exec_eq _ s, exec_eq _ s', ?_⟩
  simp only [withBlock_block, commanded, setValidation_det, setValidation_detinv, setValidation_err,
    setValidation_valid, hkey, and_self]

end Sys2Proof.Machine
end

section
/-! What the three commands have in common: the gate of ENC and DEC (R113), the frame, and a command issued again (R111, R157). -/

namespace Sys2Proof.Machine

/-- Settles O10: the code of ENC and DEC is the operand check, whatever the matrix. -/
theorem oneValidationServesBothDirections : Obligations.OneValidationServesBothDirections := by
  unfold Obligations.OneValidationServesBothDirections
  intro s
  exact ⟨_, _, exec_eq .enc s, exec_eq .dec s, (transformed_err _ _).trans (transformed_err _ _).symm⟩

section
variable {r : Reg} (b : Block)

/-- ERR shows in STATUS alone (R31, R55). -/
theorem readReg_setErr (e : ErrCode) (hstatus : r ≠ .status) : readReg r (b.setErr e) = readReg r b := by
  cases r with
  | status => exact absurd rfl hstatus
  | k11 | k12 | k21 | k22 | vin | cmd | det | detinv | ikey | vout => rfl

/-- A result shows in VOUT and STATUS alone (R55). -/
theorem readReg_setResult (x : Int × Int) (hstatus : r ≠ .status) (hvout : r ≠ .vout) :
    readReg r (b.setResult x) = readReg r b := by
  cases r with
  | status => exact absurd rfl hstatus
  | vout => exact absurd rfl hvout
  | k11 | k12 | k21 | k22 | vin | cmd | det | detinv | ikey => rfl

/-- A verdict shows in STATUS, DET, DETINV and IKEY alone (R32, R55). -/
theorem readReg_setValidation (d di : Int) (e : ErrCode)
    (hstatus : r ≠ .status) (hdet : r ≠ .det) (hdetinv : r ≠ .detinv) (hikey : r ≠ .ikey) :
    readReg r (b.setValidation d di e) = readReg r b := by
  cases r with
  | status => exact absurd rfl hstatus
  | det => exact absurd rfl hdet
  | detinv => exact absurd rfl hdetinv
  | ikey => exact absurd rfl hikey
  | k11 | k12 | k21 | k22 | vin | cmd | vout => rfl

/-- ENC and DEC show in STATUS and VOUT alone (R120, R121). -/
theorem readReg_transformed (m : Matrix2) (hstatus : r ≠ .status) (hvout : r ≠ .vout) :
    readReg r (transformed m b) = readReg r b := by
  unfold transformed
  split
  · exact readReg_setResult b _ hstatus hvout
  · exact readReg_setErr b _ hstatus

end

/-- Settles O11: VALIDATE is `setValidation`, and ENC and DEC have the frame of `transformed`. -/
theorem commandsLeaveTheOtherElements : Obligations.CommandsLeaveTheOtherElements := by
  unfold Obligations.CommandsLeaveTheOtherElements
  intro i s
  refine ⟨_, exec_eq i s, rfl, rfl, ?_⟩
  cases i with
  | validate =>
    exact ⟨⟨rfl, rfl, rfl, rfl, rfl, rfl⟩, fun _ => ⟨rfl, rfl⟩, by simp,
      fun r hstatus => ⟨fun _ => readReg_setValidation s.block _ _ _ hstatus, by simp⟩⟩
  | enc | dec =>
    obtain ⟨h11, h12, h21, h22, hv1, hv2, hwritten⟩ := transformed_frame _ s.block
    exact ⟨⟨h11, h12, h21, h22, hv1, hv2⟩, by simp, fun _ => hwritten,
      fun r hstatus => ⟨by simp, fun _ => readReg_transformed s.block _ hstatus⟩⟩

/-- ENC or DEC again with the same matrix: the operand check reads nothing the first one wrote (R24, R122, R157). -/
theorem transformed_transformed (m : Matrix2) (b : Block) : transformed m (transformed m b) = transformed m b := by
  by_cases hok : operandCheck b = .ok
  · have h : transformed m b = b.setResult (mvm26 m (symbolInt b.v1) (symbolInt b.v2)) := if_pos hok
    rw [h]
    exact if_pos hok
  · have h : transformed m b = b.setErr (operandCheck b) := if_neg hok
    rw [h]
    exact if_neg hok

/-- A command writes nothing it reads, so the second time it writes the same (R111, R120, R121). -/
theorem commanded_commanded (i : Instr) (b : Block) : commanded i (commanded i b) = commanded i b := by
  cases i with
  | validate => rfl
  | enc =>
    simp only [commanded, transformed_key, transformed_transformed]
  | dec =>
    obtain ⟨-, -, -, -, -, -, -, hdetinv, -⟩ := transformed_frame (invkey26 b.key (symbolInt b.detinv)) b
    simp only [commanded, transformed_key, hdetinv, transformed_transformed]

/-- Settles O12: a command's block is a fixed point of the command. -/
theorem reissuedCommandsChangeNothing : Obligations.ReissuedCommandsChangeNothing := by
  unfold Obligations.ReissuedCommandsChangeNothing
  intro i s
  refine ⟨_, exec_eq i s, ?_⟩
  rw [exec_eq, withBlock_block, commanded_commanded, withBlock_withBlock]

end Sys2Proof.Machine
end

section
/-! ENC and DEC (R120, R121, R124): the matrix of the command times the pair, and the two commands undoing each other. -/

namespace Sys2Proof.Machine

/-- ENC and DEC on a valid key and two symbols write R1, R2 and ERR, and the results are the matrix times the pair (R120, R121). -/
theorem transformed_product {b : Block} (m : Matrix2) (hvalid : b.valid = true)
    (h1 : b.v1.toNat ≤ 25) (h2 : b.v2.toNat ≤ 25) :
    transformed m b = { b with r1 := (transformed m b).r1, r2 := (transformed m b).r2, err := .ok } ∧
    ((transformed m b).r1.toNat : Int) = (m.m11 * b.v1.toNat + m.m12 * b.v2.toNat) % 26 ∧
    ((transformed m b).r2.toNat : Int) = (m.m21 * b.v1.toNat + m.m22 * b.v2.toNat) % 26 := by
  rw [transformed_ok m hvalid h1 h2, mvm26_eq]
  exact ⟨rfl, symbolOf_emod_toNat _, symbolOf_emod_toNat _⟩

/-- Settles O8: the three outcomes of `transformed` with the key matrix. -/
theorem encMultipliesThePairByTheKey : Obligations.EncMultipliesThePairByTheKey := by
  unfold Obligations.EncMultipliesThePairByTheKey
  intro s
  exact ⟨commanded .enc s.block, exec_eq .enc s, step_command .enc s, transformed_noKey s.block.key,
    transformed_badSymbol s.block.key, transformed_product s.block.key⟩

/-- Settles O9: the three outcomes of `transformed` with the inverse key, whose entries are those of `invkey26_eq`. -/
theorem decMultipliesThePairByTheInverseKey : Obligations.DecMultipliesThePairByTheInverseKey := by
  unfold Obligations.DecMultipliesThePairByTheInverseKey
  intro s
  refine ⟨commanded .dec s.block, exec_eq .dec s, step_command .dec s, transformed_noKey _,
    transformed_badSymbol _, fun hvalid h1 h2 => ?_⟩
  rw [commanded, invkey26_eq]
  obtain ⟨hwritten, hr1, hr2⟩ := transformed_product _ hvalid h1 h2
  exact ⟨hwritten, fun _ _ => ⟨hr1, hr2⟩⟩

/-- The DETINV of a validated key is the one the INV unit finds (R30, R95). -/
theorem detinv_eq_inv26 {b : Block} (h : b.holdsValidatedKey) : symbolInt b.detinv = inv26 (det26 b.key) := by
  obtain ⟨-, hdet, -, hinv1, hinv25, hprod, -⟩ := h
  obtain ⟨h0, h25⟩ := det26_range b.key
  rw [hdet, floormod_M] at hprod
  exact eq_inv26_of_mul_mod h0 h25 (Int.ofNat_le.mpr hinv1) (Int.ofNat_le.mpr hinv25) hprod

/-- `n` takes every pair of symbols back from what `m` makes of it. -/
def Matrix2.Undoes (n m : Matrix2) : Prop :=
  ∀ v1 v2 : Int, 0 ≤ v1 → v1 ≤ 25 → 0 ≤ v2 → v2 ≤ 25 → mvm26 n (mvm26 m v1 v2).1 (mvm26 m v1 v2).2 = (v1, v2)

/-- In a block with a validated key the matrices of ENC and DEC undo each other (R99). -/
theorem inverseKey_undoes {b : Block} (h : b.holdsValidatedKey) :
    (invkey26 b.key (symbolInt b.detinv)).Undoes b.key ∧ b.key.Undoes (invkey26 b.key (symbolInt b.detinv)) := by
  have hdetinv := detinv_eq_inv26 h
  obtain ⟨-, -, -, hinv1, -⟩ := h
  have hne : inv26 (det26 b.key) ≠ 0 := by
    rw [← hdetinv, symbolInt]
    omega
  rw [hdetinv]
  have hcancel v1 v2 := inverseKeyUndoesTheKey b.key v1 v2 hne
  exact ⟨fun v1 v2 h1 h1' h2 h2' => (hcancel v1 v2 h1 h1' h2 h2').1,
    fun v1 v2 h1 h1' h2 h2' => (hcancel v1 v2 h1 h1' h2 h2').2⟩

/-- ENC or DEC on a pair of unit results written to VIN is one more pass of the MVM unit on those results (R78, R96). -/
theorem transformed_setVin_results {b : Block} (n : Matrix2) {x : Int × Int} (hvalid : b.valid = true)
    (hx1 : 0 ≤ x.1 ∧ x.1 ≤ 25) (hx2 : 0 ≤ x.2 ∧ x.2 ≤ 25) :
    transformed n (b.setVin (pairWord (symbolOf x.1) (symbolOf x.2))) =
      (b.setVin (pairWord (symbolOf x.1) (symbolOf x.2))).setResult (mvm26 n x.1 x.2) := by
  rw [setVin_pairWord, transformed_ok (b := { b with v1 := symbolOf x.1, v2 := symbolOf x.2 }) n hvalid
    (symbolOf_le_of_range hx1) (symbolOf_le_of_range hx2),
    symbolInt_symbolOf x.1 hx1.1 (by omega), symbolInt_symbolOf x.2 hx2.1 (by omega)]

/-- The results of one matrix written back to VIN: a matrix that undoes it leaves the first pair in R1 and R2 (R78, R124). -/
theorem transformed_fedBack {m n : Matrix2} (hundo : n.Undoes m) {b c d : Block} (hvalid : b.valid = true)
    (hv : b.symbolsLegal) (hc : c = transformed m b) (hd : d = transformed n (c.setVin (pairWord c.r1 c.r2))) :
    d.r1 = b.v1 ∧ d.r2 = b.v2 ∧ d.err = .ok := by
  obtain ⟨h1, h2⟩ := hv
  obtain ⟨hfst, hsnd⟩ := mvm26_range m (symbolInt b.v1) (symbolInt b.v2)
  have hback := hundo (symbolInt b.v1) (symbolInt b.v2) (Int.natCast_nonneg _) (Int.ofNat_le.mpr h1)
    (Int.natCast_nonneg _) (Int.ofNat_le.mpr h2)
  rw [transformed_ok m hvalid h1 h2] at hc
  rw [hc, setResult_r1, setResult_r2, transformed_setVin_results n ((setResult_valid b _).trans hvalid) hfst hsnd,
    hback] at hd
  simp only [hd, setResult_r1, setResult_r2, setResult_err, symbolOf_symbolInt, and_self]

theorem transformed_detinv (m : Matrix2) (b : Block) : (transformed m b).detinv = b.detinv := by
  obtain ⟨-, -, -, -, -, -, -, hdetinv, -⟩ := transformed_frame m b
  exact hdetinv

/-- ENC and DEC leave the key and DETINV, so the second command's matrix is that of the block before the first (R120, R121). -/
theorem commanded_fedBack {b : Block} {i j : Instr} (hkey : b.holdsValidatedKey) (hvalid : b.valid = true)
    (hv : b.symbolsLegal) (hij : (i = .enc ∧ j = .dec) ∨ (i = .dec ∧ j = .enc)) {c d : Block}
    (hc : c = commanded i b) (hd : d = commanded j (c.setVin (pairWord c.r1 c.r2))) :
    d.r1 = b.v1 ∧ d.r2 = b.v2 ∧ d.err = .ok := by
  obtain ⟨hdecEnc, hencDec⟩ := inverseKey_undoes hkey
  rcases hij with ⟨rfl, rfl⟩ | ⟨rfl, rfl⟩
  · refine transformed_fedBack hdecEnc hvalid hv hc ?_
    rw [hd, hc]
    simp only [commanded, setVin_key, setVin_detinv, transformed_key, transformed_detinv]
  · refine transformed_fedBack hencDec hvalid hv hc ?_
    rw [hd, hc]
    simp only [commanded, setVin_key, transformed_key]

/-- The machine after a Write of VIN and a command: two more responses Ok (R72, R74). -/
theorem stateAfter_vin_command (w : Word) (i : Instr) (s : State) :
    stateAfter (cmdWrite (encode i)) (stateAfter (writeAt Reg.vin.offset w) s) =
      ((s.withBlock (commanded i (s.block.setVin w))).answer .ok).answer .ok := by
  rw [stateAfter, stateAfter_block, blockAfter_command, blockAfter_vinWrite]
  rfl

/-- A word written to VIN and a command, as lines of a script (R82). -/
theorem runScript_vin_command (w : Word) (i : Instr) (s : State) :
    ∃ t, runScript [.wr (.reg .vin) (.word w), .cmd i] s = .next t ∧ t.block = commanded i (s.block.setVin w) :=
  ⟨_, runEvents_eq _ s, congrArg State.block (stateAfter_vin_command w i s)⟩

/-- The Read of VOUT after a pair and a command answers the results of that command (R78, R82). -/
theorem runScript_setv_command_vout (a b : Symbol) (i : Instr) (s : State) :
    ∃ u, runScript (setv a.toNat b.toNat ++ [.cmd i, .rd (.reg .vout)]) s = .next u ∧
      u.block = commanded i (s.block.setVin (pairWord a b)) ∧
      u.answers.head? = some (.okWord (pairWord u.block.r1 u.block.r2)) := by
  rw [setv, ofNat_pair]
  exact ⟨_, runEvents_eq _ s, congrArg State.block (stateAfter_vin_command (pairWord a b) i s), rfl⟩

/-- Settles O13: `commanded_fedBack` on the block that holds the pair, with the scripts run to their blocks. -/
theorem roundTripOnTheRegisters : Obligations.RoundTripOnTheRegisters := by
  unfold Obligations.RoundTripOnTheRegisters
  rintro s a b i j ⟨-, hkey⟩ hvalid ha hb hij
  obtain ⟨u, hrun, hblock, hanswer⟩ := runScript_setv_command_vout a b i s
  obtain ⟨t, hrun', hblock'⟩ := runScript_vin_command (pairWord u.block.r1 u.block.r2) j u
  refine ⟨u, t, _, hrun, hanswer, hrun', ?_⟩
  rw [setVin_pairWord] at hblock
  exact commanded_fedBack (b := { s.block with v1 := a, v2 := b }) (hkey hvalid) hvalid ⟨ha, hb⟩ hij hblock hblock'

end Sys2Proof.Machine
end

section
/-! Text at the host (R135 to R138): `normalize` numbers the letters of a text and pads them to whole pairs. -/

namespace Sys2Proof.Machine

/-- A number below 128 is the code of the character it names: every code of R136 and R137 is. -/
theorem code_ofNat {n : Nat} (h : n < 128) : code (Char.ofNat n) = n := by
  rw [code, Char.toNat_ofNat, if_pos (Or.inl (by omega))]

theorem code_letter {v : Nat} (hv : v ≤ 25) : code (letter v) = 65 + v :=
  code_ofNat (show 65 + v < 128 by omega)

/-- Uppercasing moves the codes 97 to 122 down by 32 (R137). -/
theorem code_uppercase (c : Char) :
    code (uppercase c) = if 97 ≤ code c ∧ code c ≤ 122 then code c - 32 else code c := by
  have hcodes : code 'a' = 97 ∧ code 'z' = 122 ∧ code 'A' = 65 := by decide
  obtain ⟨ha, hz, hA⟩ := hcodes
  unfold uppercase
  rw [ha, hz, hA]
  split
  · rw [code_ofNat (by omega)]
    omega
  · rfl

/-- The number 0 to 25 of one of the 52 letters, by its code; see `map_lettersOf` (R135 to R137). -/
def letterNumber (c : Char) : Option Nat :=
  if 65 ≤ c.toNat ∧ c.toNat ≤ 90 then some (c.toNat - 65)
  else if 97 ≤ c.toNat ∧ c.toNat ≤ 122 then some (c.toNat - 97) else none

/-- A character has a number exactly when its uppercase form is a letter, whose distance from 'A' the number is. -/
theorem letterNumber_eq (c : Char) :
    letterNumber c = if isLetter (uppercase c) then some (code (uppercase c) - code 'A') else none := by
  have hletter : isLetter (uppercase c) = true ↔ 65 ≤ code (uppercase c) ∧ code (uppercase c) ≤ 90 := by
    rw [isLetter, Bool.and_eq_true, decide_eq_true_eq, decide_eq_true_eq]
    rfl
  simp only [hletter, code_uppercase, letterNumber, show c.toNat = code c from rfl, show code 'A' = 65 from rfl]
  by_cases hlower : 97 ≤ code c ∧ code c ≤ 122
  · have hupper : ¬ (65 ≤ code c ∧ code c ≤ 90) := by omega
    simp only [if_pos hlower, if_neg hupper]
    rw [if_pos (by omega), Option.some_inj]
    omega
  · simp only [if_neg hlower]

theorem letterNumber_le {c : Char} {n : Nat} (h : letterNumber c = some n) : n ≤ 25 := by
  unfold letterNumber at h
  split_ifs at h <;> cases h <;> omega

theorem letterNumber_letter {v : Nat} (hv : v ≤ 25) : letterNumber (letter v) = some v := by
  have hcode : (letter v).toNat = 65 + v := code_letter hv
  rw [letterNumber, hcode, if_pos (by omega), Nat.add_sub_cancel_left]

/-- The document's order, uppercase, filter, number, gives the numbers of the letters in order (R135). -/
theorem map_lettersOf (text : Text) :
    (lettersOf text).map (fun c => code c - code 'A') = text.filterMap letterNumber := by
  induction text with
  | nil => rfl
  | cons c cs ih =>
    rw [lettersOf, List.map_cons, List.filter_cons, List.filterMap_cons, letterNumber_eq, ← ih]
    split <;> rfl

theorem normalizeText_eq (text : Text) :
    normalizeText text = if text.filterMap letterNumber = [] then .error .emptyInput
      else .ok (padEven (text.filterMap letterNumber)) := by
  rw [← map_lettersOf, normalizeText]
  cases lettersOf text with
  | nil => rfl
  | cons c cs => rfl

/-- A sequence of symbols that splits into pairs, as the pair loop takes it apart (R140, R141). -/
inductive SymbolPairs : List Nat → Prop
  | nil : SymbolPairs []
  | cons {v1 v2 : Nat} {rest : List Nat} (h1 : v1 ≤ 25) (h2 : v2 ≤ 25) (hrest : SymbolPairs rest) :
      SymbolPairs (v1 :: v2 :: rest)

theorem symbolPairs_iff {s : List Nat} : SymbolPairs s ↔ s.length % 2 = 0 ∧ ∀ x ∈ s, x ≤ 25 := by
  constructor
  · intro h
    induction h with
    | nil => simp
    | cons h1 h2 _ ih =>
      simp only [List.length_cons, List.forall_mem_cons]
      exact ⟨by omega, h1, h2, ih.2⟩
  · rintro ⟨heven, hle⟩
    induction s using List.twoStepInduction with
    | nil => exact .nil
    | singleton => cases heven
    | cons_cons v1 v2 rest ih _ =>
      simp only [List.length_cons, List.forall_mem_cons] at heven hle
      exact .cons hle.1 hle.2.1 (ih (by omega) hle.2.2)

theorem padEven_of_even {s : List Nat} (h : s.length % 2 = 0) : padEven s = s := by
  rw [padEven, if_neg (by omega)]

theorem padEven_of_odd {s : List Nat} (h : s.length % 2 = 1) : padEven s = s ++ [23] := by
  rw [padEven, if_pos h]

/-- Padding makes whole pairs of any symbols (R135). -/
theorem symbolPairs_padEven {s : List Nat} (hle : ∀ x ∈ s, x ≤ 25) : SymbolPairs (padEven s) := by
  rw [symbolPairs_iff]
  rcases Nat.mod_two_eq_zero_or_one s.length with heven | hodd
  · rw [padEven_of_even heven]
    exact ⟨heven, hle⟩
  · rw [padEven_of_odd hodd, List.length_append, List.forall_mem_append]
    exact ⟨by simp; omega, hle, by simp⟩

theorem padEven_ne_nil {s : List Nat} (h : s ≠ []) : padEven s ≠ [] := by
  unfold padEven
  split <;> simp [h]

/-- What `normalize` returns is one pair of symbols or more (R135). -/
theorem normalizeText_ok {text : Text} {r : List Nat} (h : normalizeText text = .ok r) : r ≠ [] ∧ SymbolPairs r := by
  rw [normalizeText_eq] at h
  split_ifs at h with hnone
  cases h
  refine ⟨padEven_ne_nil hnone, symbolPairs_padEven fun x hx => ?_⟩
  obtain ⟨c, -, hc⟩ := List.mem_filterMap.mp hx
  exact letterNumber_le hc

theorem normalizeText_error {text : Text} {e : HostError} (h : normalizeText text = .error e) : e = .emptyInput := by
  rw [normalizeText_eq] at h
  split_ifs at h
  cases h
  rfl

/-- Settles O49: `normalizeText_eq` with `letterNumber` for the letters, and `padEven` in its two cases. -/
theorem normalizeKeepsTheLettersAndPads : Obligations.NormalizeKeepsTheLettersAndPads := by
  unfold Obligations.NormalizeKeepsTheLettersAndPads
  intro text s hs
  have hnorm : normalizeText text = if s = [] then .error .emptyInput else .ok (padEven s) := hs ▸ normalizeText_eq text
  refine ⟨fun hnil => ?_, fun hne heven => ?_, fun hodd => ?_, fun r hr => ?_⟩
  · rw [hnorm, if_pos hnil]
  · rw [hnorm, if_neg hne, padEven_of_even heven]
  · rw [hnorm, if_neg (by rintro rfl; cases hodd), padEven_of_odd hodd]
  · obtain ⟨hne, hpairs⟩ := normalizeText_ok hr
    obtain ⟨heven, hle⟩ := symbolPairs_iff.mp hpairs
    have := List.length_pos_iff.mpr hne
    exact ⟨heven, by omega, hle⟩

/-- The numbers of the letters of symbols are the symbols (R136, R138). -/
theorem filterMap_letterNumber_letters {s : List Nat} (hle : ∀ x ∈ s, x ≤ 25) :
    (letters s).filterMap letterNumber = s := by
  rw [letters, List.filterMap_map]
  calc s.filterMap (letterNumber ∘ letter) = s.map id :=
        List.filterMap_eq_map_iff_forall_eq_some.mpr fun x hx => letterNumber_letter (hle x hx)
    _ = s := List.map_id s

/-- Whole pairs of symbols pass through their letters and `normalize` unchanged. -/
theorem normalizeText_letters {s : List Nat} (hne : s ≠ []) (hpairs : SymbolPairs s) :
    normalizeText (letters s) = .ok s := by
  obtain ⟨heven, hle⟩ := symbolPairs_iff.mp hpairs
  rw [normalizeText_eq, filterMap_letterNumber_letters hle, if_neg hne, padEven_of_even heven]

/-- Settles O50: what `normalize` returns is whole pairs already. -/
theorem normalizeIsIdempotent : Obligations.NormalizeIsIdempotent := by
  unfold Obligations.NormalizeIsIdempotent
  intro text r h
  obtain ⟨hne, hpairs⟩ := normalizeText_ok h
  exact normalizeText_letters hne hpairs

/-- Every character of a letter-only text has a number. -/
theorem exists_letterNumber_eq_some {c : Char} (h : ('A' ≤ c ∧ c ≤ 'Z') ∨ ('a' ≤ c ∧ c ≤ 'z')) :
    ∃ n, letterNumber c = some n := by
  have hcode : (65 ≤ c.toNat ∧ c.toNat ≤ 90) ∨ (97 ≤ c.toNat ∧ c.toNat ≤ 122) := h
  rcases hcode with hupper | hlower
  · exact ⟨_, if_pos hupper⟩
  · exact ⟨_, (if_neg (by omega)).trans (if_pos hlower)⟩

/-- So a letter-only text keeps its length. -/
theorem length_filterMap_letterNumber {text : Text}
    (h : ∀ c ∈ text, ('A' ≤ c ∧ c ≤ 'Z') ∨ ('a' ≤ c ∧ c ≤ 'z')) :
    (text.filterMap letterNumber).length = text.length := by
  induction text with
  | nil => rfl
  | cons c cs ih =>
    obtain ⟨hc, hcs⟩ := List.forall_mem_cons.mp h
    obtain ⟨n, hn⟩ := exists_letterNumber_eq_some hc
    rw [List.filterMap_cons_some hn, List.length_cons, List.length_cons, ih hcs]

/-- Settles O51: the odd case of `padEven`, on a sequence as long as the text. -/
theorem oddTextsArePaddedWithX : Obligations.OddTextsArePaddedWithX := by
  unfold Obligations.OddTextsArePaddedWithX
  intro text hletters hodd
  have hlength := length_filterMap_letterNumber hletters
  have hne : text.filterMap letterNumber ≠ [] := by
    rw [← List.length_pos_iff]
    omega
  refine ⟨text.filterMap letterNumber ++ [23], ?_, ?_, List.getLast?_concat⟩
  · rw [normalizeText_eq, if_neg hne, padEven_of_odd (hlength ▸ hodd)]
  · rw [List.length_append, hlength]
    rfl

end Sys2Proof.Machine
end

section
/-! The key fields at the host (R131, R132). -/

namespace Sys2Proof.Machine

/-- Under default_to_zero a field is its integer, or 0 (R131). -/
theorem parseKeyField_defaultToZero (f : Option Text) :
    parseKeyField .defaultToZero f = .ok ((f.bind Config.parseInteger).getD 0) := by
  unfold parseKeyField
  cases f.bind Config.parseInteger <;> rfl

/-- Under reject a field that is no integer is an error (R131). -/
theorem parseKeyField_reject (f : Option Text) :
    parseKeyField .reject f = (f.bind Config.parseInteger).elim (.error .unparsableField) .ok := by
  unfold parseKeyField
  cases f.bind Config.parseInteger <;> rfl

/-- Settles O46: the two policies on each field, and the four fields of a key under each. -/
theorem keyFieldsFollowTheParsePolicy : Obligations.KeyFieldsFollowTheParsePolicy := by
  unfold Obligations.KeyFieldsFollowTheParsePolicy
  refine ⟨fun f => ?_, rfl, rfl, fun f11 f12 f21 f22 => ⟨?_, ?_⟩⟩
  · rw [parseKeyField_defaultToZero, parseKeyField_reject, Option.bind_some]
    cases Config.parseInteger f with
    | none => exact ⟨rfl, rfl⟩
    | some i => exact ⟨rfl, rfl⟩
  · simp only [parseKey, parseKeyField_defaultToZero]
  · simp only [parseKey, parseKeyField_reject]
    rcases f11.bind Config.parseInteger with _ | a
    · rfl
    rcases f12.bind Config.parseInteger with _ | b
    · rfl
    rcases f21.bind Config.parseInteger with _ | c
    · rfl
    rcases f22.bind Config.parseInteger with _ | d
    · rfl
    · rfl

theorem keyEntryInRange_iff {i : Int} : keyEntryInRange i = true ↔ -2 ^ 31 ≤ i ∧ i < 2 ^ 31 := by
  rw [keyEntryInRange, Bool.and_eq_true, decide_eq_true_eq, decide_eq_true_eq]

theorem keyInRange_iff {k : Matrix2} :
    keyInRange k = true ↔ (-2 ^ 31 ≤ k.m11 ∧ k.m11 < 2 ^ 31) ∧ (-2 ^ 31 ≤ k.m12 ∧ k.m12 < 2 ^ 31) ∧
      (-2 ^ 31 ≤ k.m21 ∧ k.m21 < 2 ^ 31) ∧ -2 ^ 31 ≤ k.m22 ∧ k.m22 < 2 ^ 31 := by
  simp only [keyInRange, Bool.and_eq_true, keyEntryInRange_iff, and_assoc]

/-- A key out of range is refused before any transaction (R132). -/
theorem validateKey_of_not_inRange {k : Matrix2} (h : keyInRange k = false) (s : State) :
    validateKey k s = .next (.error .keyOutOfRange, s) := by
  rw [validateKey, h]
  rfl

/-- With a key that does not validate a call ends as `validateKey` does (R139). -/
theorem callWithKey_of_error {k : Matrix2} {s t : State} {e : HostError} (h : validateKey k s = .next (.error e, t))
    (i : Instr) (text : Text) : callWithKey i k text s = .next (.error e, t) := by
  rw [callWithKey, h]
  rfl

/-- Settles O55: both calls are `callWithKey`. -/
theorem keyErrorsComeFirst : Obligations.KeyErrorsComeFirst := by
  unfold Obligations.KeyErrorsComeFirst
  intro k text s e t h
  exact ⟨callWithKey_of_error h .enc text, callWithKey_of_error h .dec text⟩

/-- Settles O47: one entry out of range puts the key out of range, and the refusal is the error of all three calls. -/
theorem outOfRangeKeysAreRefused : Obligations.OutOfRangeKeysAreRefused := by
  unfold Obligations.OutOfRangeKeysAreRefused
  intro k text s x hx hout
  have hkey : keyInRange k = false := by
    rw [Bool.eq_false_iff, ne_eq, keyInRange_iff]
    omega
  have hrefused := validateKey_of_not_inRange hkey s
  exact ⟨hrefused, callWithKey_of_error hrefused .enc text, callWithKey_of_error hrefused .dec text⟩

end Sys2Proof.Machine
end

section
/-! One transaction of a host call and the rest of its sequence (R133, R140, R141), and the responses a call adds (R134). -/

namespace Sys2Proof.Machine

/-- The responses from `s` to `t` are new ones before those of `s`, and none of them is a BusError (R134). -/
def State.ServedTo (s t : State) : Prop :=
  ∃ new, t.answers = new ++ s.answers ∧ HostResponse.busError ∉ new

theorem servedTo_refl (s : State) : s.ServedTo s := ⟨[], rfl, List.not_mem_nil⟩

theorem State.ServedTo.trans {s t u : State} (hst : s.ServedTo t) (htu : t.ServedTo u) : s.ServedTo u := by
  obtain ⟨new, hnew, hbus⟩ := hst
  obtain ⟨new', hnew', hbus'⟩ := htu
  exact ⟨new' ++ new, by rw [hnew', hnew, List.append_assoc], by simp [hbus, hbus']⟩

theorem State.ServedTo.answer {s t : State} (h : s.ServedTo t) {r : HostResponse} (hr : r ≠ .busError) :
    s.ServedTo (t.answer r) :=
  h.trans ⟨[r], rfl, by simpa using hr.symm⟩

section
variable {α : Type}

/-- `wr NAME, w` of a register other than CMD goes on with the word stored. -/
theorem wrThen_spec {r : Reg} (hw : r.writable = true) (hcmd : r ≠ .cmd) (w : Word) (s : State) :
    ∃ t, t.block = storeReg r w s.block ∧ s.ServedTo t ∧
      ∀ next : State → HostOutcome α, wrThen r w next s = next t := by
  refine ⟨(s.withBlock (storeReg r w s.block)).answer .ok, rfl, (servedTo_refl s).answer (by decide), fun next => ?_⟩
  rw [wrThen, issue, step_writeAt hw hcmd, andThen_next]

/-- `cmd NAME` goes on with the command run. -/
theorem cmdThen_spec (i : Instr) (s : State) :
    ∃ t, t.block = commanded i s.block ∧ s.ServedTo t ∧
      ∀ next : State → HostOutcome α, cmdThen i next s = next t := by
  refine ⟨(s.withBlock (commanded i s.block)).answer .ok, rfl, (servedTo_refl s).answer (by decide), fun next => ?_⟩
  rw [cmdThen, issue, step_command, andThen_next]

/-- `rd NAME` of a readable register goes on with its value, the block as it was. -/
theorem rdThen_spec {r : Reg} {v : Word} {s : State} (hv : readReg r s.block = some v) :
    ∃ t, t.block = s.block ∧ s.ServedTo t ∧
      ∀ next : Word → State → HostOutcome α, rdThen r next s = next v t := by
  refine ⟨s.answer (.okWord v), rfl, (servedTo_refl s).answer (by simp), fun next => ?_⟩
  rw [rdThen, issue, step_readAt hv, andThen_next]
  rfl

end

end Sys2Proof.Machine
end

section
/-! The validateKey call (R132 to R134): its result is a function of the key integers, and it leaves the key validated in the block. -/

namespace Sys2Proof.Machine

/-- The block after the four key writes (R133). -/
def Block.loadKey (k : Matrix2) (b : Block) : Block :=
  (((b.setK11 (word32 k.m11)).setK12 (word32 k.m12)).setK21 (word32 k.m21)).setK22 (word32 k.m22)

/-- A key in range is read back as it was written (R21, R73). -/
theorem loadKey_key {k : Matrix2} (h : keyInRange k = true) (b : Block) : (b.loadKey k).key = k := by
  obtain ⟨⟨h11, h11'⟩, ⟨h12, h12'⟩, ⟨h21, h21'⟩, h22, h22'⟩ := keyInRange_iff.mp h
  have hkey : (b.loadKey k).key =
      ⟨sint32 (word32 k.m11), sint32 (word32 k.m12), sint32 (word32 k.m21), sint32 (word32 k.m22)⟩ := rfl
  rw [hkey, sint32_word32 _ h11 h11', sint32_word32 _ h12 h12', sint32_word32 _ h21 h21', sint32_word32 _ h22 h22']

/-- The result of the validateKey call, see `validateKey_spec` (R132 to R134). -/
def keyVerdict (k : Matrix2) : Except HostError ValidatedKey :=
  if keyInRange k then
    match keyCheck k with
    | .keyAllZero => .error (.invalidKey .allZero)
    | .keySingular => .error (.invalidKey .singular)
    | .keyNonInvertible => .error (.invalidKey .nonInvertible)
    | _ => .ok { matrix := k, det := det26 k, detInv := inv26 (det26 k) }
  else .error .keyOutOfRange

theorem keyVerdict_of_not_inRange {k : Matrix2} (h : keyInRange k = false) : keyVerdict k = .error .keyOutOfRange := by
  rw [keyVerdict, h]
  rfl

section
variable {k : Matrix2} (hk : keyInRange k = true)
include hk

theorem keyVerdict_of_allZero (h : keyCheck k = .keyAllZero) : keyVerdict k = .error (.invalidKey .allZero) := by
  rw [keyVerdict, if_pos hk, h]

theorem keyVerdict_of_singular (h : keyCheck k = .keySingular) : keyVerdict k = .error (.invalidKey .singular) := by
  rw [keyVerdict, if_pos hk, h]

theorem keyVerdict_of_nonInvertible (h : keyCheck k = .keyNonInvertible) :
    keyVerdict k = .error (.invalidKey .nonInvertible) := by
  rw [keyVerdict, if_pos hk, h]

theorem keyVerdict_of_ok (h : keyCheck k = .ok) :
    keyVerdict k = .ok { matrix := k, det := det26 k, detInv := inv26 (det26 k) } := by
  rw [keyVerdict, if_pos hk, h]

end

/-- On success the host copies DET and DETINV out (R133). -/
theorem validateResult_of_ok {k : Matrix2} {s : State} {st : Word} (hok : statusErr st = ErrCode.ok.bits)
    (hvalid : statusValid st = true) :
    ∃ t, validateResult k st s =
        .next (.ok { matrix := k, det := symbolInt s.block.det, detInv := symbolInt s.block.detinv }, t) ∧
      t.block = s.block ∧ s.ServedTo t := by
  obtain ⟨u, hu, hsu, hdet⟩ := rdThen_spec (r := .det) (s := s) rfl
  obtain ⟨t, ht, hut, hdetinv⟩ := rdThen_spec (r := .detinv) (s := u) rfl
  refine ⟨t, ?_, ht.trans hu, hsu.trans hut⟩
  rw [validateResult, hok, if_neg (by decide), if_neg (by decide), if_neg (by decide), if_pos ⟨rfl, hvalid⟩,
    hdet, hdetinv, zext32_toNat, zext32_toNat, hu]
  rfl

/-- On a code of the key checks the host names its reason and reads nothing more (R133, R134). -/
theorem validateResult_of_failing {k : Matrix2} (hk : keyInRange k = true) (hne : keyCheck k ≠ .ok) {st : Word}
    (hst : statusErr st = (keyCheck k).bits) (s : State) : validateResult k st s = .next (keyVerdict k, s) := by
  rcases keyCheck_cases k with ⟨-, hc⟩ | ⟨-, -, hc⟩ | ⟨-, -, -, hc⟩ | ⟨-, -, -, hc⟩
  · rw [keyVerdict_of_allZero hk hc, validateResult, hst, hc, if_pos rfl]
  · rw [keyVerdict_of_singular hk hc, validateResult, hst, hc, if_neg (by decide), if_pos rfl]
  · rw [keyVerdict_of_nonInvertible hk hc, validateResult, hst, hc, if_neg (by decide), if_neg (by decide), if_pos rfl]
  · exact absurd hc hne

/-- The host's result on the STATUS word of a block that VALIDATE has just written is the verdict on its key (R133, R134). -/
theorem validateResult_spec {s : State} {b : Block} (hk : keyInRange b.key = true)
    (hs : s.block = commanded .validate b) :
    ∃ t, validateResult b.key (statusWord (commanded .validate b)) s = .next (keyVerdict b.key, t) ∧
      t.block = s.block ∧ s.ServedTo t := by
  have hst : statusErr (statusWord (commanded .validate b)) = (keyCheck b.key).bits := statusErr_statusWord _
  by_cases hc : keyCheck b.key = .ok
  · have hvalid : statusValid (statusWord (commanded .validate b)) = true :=
      (statusValid_statusWord _).trans (validate_verdict hc).2
    have hdet : symbolInt s.block.det = det26 b.key := hs ▸ validate_det_toNat b
    have hdetinv : symbolInt s.block.detinv = inv26 (det26 b.key) := hs ▸ validate_detinv_toNat b
    rw [keyVerdict_of_ok hk hc, ← hdetinv, ← hdet]
    exact validateResult_of_ok (hc ▸ hst) hvalid
  · exact ⟨s, validateResult_of_failing hk hc hst s, rfl, servedTo_refl s⟩

/-- The transactions of the validateKey call, up to the STATUS read (R133). -/
theorem validateKey_of_inRange {k : Matrix2} (hk : keyInRange k = true) (s : State) :
    ∃ t, t.block = commanded .validate (s.block.loadKey k) ∧ s.ServedTo t ∧
      validateKey k s = validateResult k (statusWord (commanded .validate (s.block.loadKey k))) t := by
  obtain ⟨s1, hb1, hs1, hrun1⟩ := wrThen_spec (r := .k11) rfl (by decide) (word32 k.m11) s
  obtain ⟨s2, hb2, hs2, hrun2⟩ := wrThen_spec (r := .k12) rfl (by decide) (word32 k.m12) s1
  obtain ⟨s3, hb3, hs3, hrun3⟩ := wrThen_spec (r := .k21) rfl (by decide) (word32 k.m21) s2
  obtain ⟨s4, hb4, hs4, hrun4⟩ := wrThen_spec (r := .k22) rfl (by decide) (word32 k.m22) s3
  obtain ⟨s5, hb5, hs5, hrun5⟩ := cmdThen_spec .validate s4
  obtain ⟨t, hbt, hst, hrunt⟩ := rdThen_spec (r := .status) (s := s5) rfl
  have hblock : s5.block = commanded .validate (s.block.loadKey k) := by
    rw [hb5, hb4, hb3, hb2, hb1]
    rfl
  refine ⟨t, hbt.trans hblock, ((((hs1.trans hs2).trans hs3).trans hs4).trans hs5).trans hst, ?_⟩
  rw [validateKey, if_pos hk, hrun1, hrun2, hrun3, hrun4, hrun5, hrunt, hblock]

/-- The validateKey call on any key: the verdict, with the key in range loaded and validated (R132 to R134). -/
theorem validateKey_spec (k : Matrix2) (s : State) :
    ∃ t, validateKey k s = .next (keyVerdict k, t) ∧ s.ServedTo t ∧
      (keyInRange k = true → t.block = commanded .validate (s.block.loadKey k)) := by
  cases hk : keyInRange k with
  | false =>
    refine ⟨s, ?_, servedTo_refl s, nofun⟩
    rw [validateKey_of_not_inRange hk, keyVerdict_of_not_inRange hk]
  | true =>
    obtain ⟨u, hu, hsu, hcall⟩ := validateKey_of_inRange hk s
    have hkey := loadKey_key hk s.block
    obtain ⟨t, hrun, ht, hut⟩ := validateResult_spec (hkey.symm ▸ hk) hu
    rw [hkey] at hrun
    exact ⟨t, hcall.trans hrun, hsu.trans hut, fun _ => ht.trans hu⟩

/-- Settles O48: the verdict of each of the key checks. -/
theorem validateKeyReturnsTheFirstFailingReason : Obligations.ValidateKeyReturnsTheFirstFailingReason := by
  unfold Obligations.ValidateKeyReturnsTheFirstFailingReason
  intro k s hk
  obtain ⟨t, hrun, -, hblock⟩ := validateKey_spec k s
  have hkey := loadKey_key hk s.block
  refine ⟨_, t, hrun, ?_, fun hzero => ?_, fun hne hdet => ?_, fun hne hdet hgcd => ?_, fun hgcd => ?_⟩
  · rw [hblock hk]
    exact hkey
  · exact keyVerdict_of_allZero hk (hzero ▸ keyCheck_zero)
  · exact keyVerdict_of_singular hk ((keyCheck_of_ne_zero hne).1 hdet)
  · exact keyVerdict_of_nonInvertible hk (keyCheck_of_gcd_ne_one hdet hgcd)
  · have hok := keyCheck_of_gcd_eq_one hgcd
    refine ⟨keyVerdict_of_ok hk hok, ?_⟩
    rw [hblock hk]
    exact (validate_verdict (hkey.symm ▸ hok)).2

end Sys2Proof.Machine
end

section
/-! The pair loop (R140, R141): on a validated key it returns the matrix of its command times each pair, in order. -/

namespace Sys2Proof.Machine

/-- The block answers ENC or DEC with the matrix `m` times a pair of symbols: its key is valid, and `m` is the command's matrix (R120, R121). -/
structure Block.ReadyFor (i : Instr) (m : Matrix2) (b : Block) : Prop where
  valid : b.valid = true
  err : b.err = .ok
  matrix : (i = .enc ∧ m = b.key) ∨ (i = .dec ∧ m = invkey26 b.key (symbolInt b.detinv))

section
variable {i : Instr} {m : Matrix2} {b : Block} (h : b.ReadyFor i m)
include h

theorem Block.ReadyFor.setVin (w : Word) : (b.setVin w).ReadyFor i m := ⟨h.valid, h.err, h.matrix⟩

theorem Block.ReadyFor.setResult (x : Int × Int) : (b.setResult x).ReadyFor i m := ⟨h.valid, rfl, h.matrix⟩

theorem Block.ReadyFor.commanded_eq : commanded i b = transformed m b := by
  rcases h.matrix with ⟨rfl, rfl⟩ | ⟨rfl, rfl⟩ <;> rfl

end

/-- The host's word of a pair of symbols is the pair layout of their registers (R82, R140). -/
theorem ofNat_symbols {v1 v2 : Nat} (h1 : v1 ≤ 25) (h2 : v2 ≤ 25) :
    BitVec.ofNat 32 (v1 + 256 * v2) = pairWord (symbolOf v1) (symbolOf v2) := by
  rw [← ofNat_pair, symbolOf_toNat _ (by omega) (by omega), symbolOf_toNat _ (by omega) (by omega),
    Int.toNat_natCast, Int.toNat_natCast]

/-- The command on a pair written to VIN: one pass of the MVM unit (R120, R121). -/
theorem commanded_pair {i : Instr} {m : Matrix2} {b : Block} (h : b.ReadyFor i m) {v1 v2 : Nat}
    (h1 : v1 ≤ 25) (h2 : v2 ≤ 25) :
    commanded i (b.setVin (BitVec.ofNat 32 (v1 + 256 * v2))) =
      (b.setVin (BitVec.ofNat 32 (v1 + 256 * v2))).setResult (mvm26 m v1 v2) := by
  rw [(h.setVin _).commanded_eq, ofNat_symbols h1 h2]
  exact transformed_setVin_results (x := (v1, v2)) m h.valid (by omega) (by omega)

/-- What VOUT gives back of a result of the MVM unit (R78). -/
theorem pairWord_results_toNat (m : Matrix2) (v1 v2 : Int) :
    (firstOfPair (pairWord (symbolOf (mvm26 m v1 v2).1) (symbolOf (mvm26 m v1 v2).2))).toNat =
      (mvm26 m v1 v2).1.toNat ∧
    (secondOfPair (pairWord (symbolOf (mvm26 m v1 v2).1) (symbolOf (mvm26 m v1 v2).2))).toNat =
      (mvm26 m v1 v2).2.toNat := by
  obtain ⟨hfst, hsnd⟩ := mvm26_range m v1 v2
  rw [firstOfPair_pairWord, secondOfPair_pairWord]
  exact ⟨symbolOf_toNat _ hfst.1 (by omega), symbolOf_toNat _ hsnd.1 (by omega)⟩

/-- One turn of the pair loop: it appends the product of the pair and leaves the block ready for the next one. -/
theorem sendPairs_cons {i : Instr} {m : Matrix2} {s : State} (h : s.block.ReadyFor i m) {v1 v2 : Nat}
    (h1 : v1 ≤ 25) (h2 : v2 ≤ 25) :
    ∃ u, u.block.ReadyFor i m ∧ s.ServedTo u ∧ ∀ rest out t, sendPairs i rest u = .next (.ok out, t) →
      sendPairs i (v1 :: v2 :: rest) s =
        .next (.ok ((mvm26 m v1 v2).1.toNat :: (mvm26 m v1 v2).2.toNat :: out), t) := by
  obtain ⟨s1, hb1, hs1, hrun1⟩ := wrThen_spec (r := .vin) rfl (by decide) (BitVec.ofNat 32 (v1 + 256 * v2)) s
  obtain ⟨s2, hb2, hs2, hrun2⟩ := cmdThen_spec i s1
  obtain ⟨s3, hb3, hs3, hrun3⟩ := rdThen_spec (r := .status) (s := s2) rfl
  obtain ⟨u, hbu, hsu, hrunu⟩ := rdThen_spec (r := .vout) (s := s3) rfl
  have hblock : s2.block = (s.block.setVin (BitVec.ofNat 32 (v1 + 256 * v2))).setResult (mvm26 m v1 v2) := by
    rw [hb2, hb1]
    exact commanded_pair h h1 h2
  have hstatus : statusErr (statusWord s2.block) = ErrCode.ok.bits := by
    rw [statusErr_statusWord, hblock, setResult_err]
  refine ⟨u, ?_, ((hs1.trans hs2).trans hs3).trans hsu, fun rest out t hrest => ?_⟩
  · rw [hbu, hb3, hblock]
    exact (h.setVin _).setResult _
  · obtain ⟨hfst, hsnd⟩ := pairWord_results_toNat m v1 v2
    rw [sendPairs, hrun1, hrun2, hrun3, if_pos hstatus, hrunu, hrest, andThen_next, hb3, hblock, setResult_r1,
      setResult_r2, hfst, hsnd]

/-- The matrix times each pair of a symbol sequence, see `sendPairs_spec` (R140, R141). -/
def pairProducts (m : Matrix2) : List Nat → List Nat
  | [] => []
  | [_] => []
  | v1 :: v2 :: rest => (mvm26 m v1 v2).1.toNat :: (mvm26 m v1 v2).2.toNat :: pairProducts m rest

/-- The pair loop on a validated key sends every pair and returns the products in order (R140, R141). -/
theorem sendPairs_spec {i : Instr} {m : Matrix2} {sym : List Nat} (hsym : SymbolPairs sym) {s : State}
    (h : s.block.ReadyFor i m) :
    ∃ t, sendPairs i sym s = .next (.ok (pairProducts m sym), t) ∧ t.block.ReadyFor i m ∧ s.ServedTo t := by
  induction hsym generalizing s with
  | nil => exact ⟨s, rfl, h, servedTo_refl s⟩
  | cons h1 h2 _ ih =>
    obtain ⟨u, hu, hsu, hturn⟩ := sendPairs_cons h h1 h2
    obtain ⟨t, hrun, ht, hut⟩ := ih hu
    exact ⟨t, hturn _ _ _ hrun, ht, hsu.trans hut⟩

section
variable {m : Matrix2} {sym : List Nat} (hsym : SymbolPairs sym)
include hsym

theorem pairProducts_length : (pairProducts m sym).length = sym.length := by
  induction hsym with
  | nil => rfl
  | cons _ _ _ ih => simp only [pairProducts, List.length_cons, ih]

/-- Products are pairs of symbols again (R96). -/
theorem symbolPairs_pairProducts : SymbolPairs (pairProducts m sym) := by
  induction hsym with
  | nil => exact .nil
  | @cons v1 v2 _ _ _ _ ih =>
    obtain ⟨hfst, hsnd⟩ := mvm26_range m v1 v2
    exact .cons (by omega) (by omega) ih

/-- A matrix that undoes another one gives the sequence back (R99). -/
theorem pairProducts_pairProducts {n : Matrix2} (hundo : n.Undoes m) : pairProducts n (pairProducts m sym) = sym := by
  induction hsym with
  | nil => rfl
  | @cons v1 v2 _ h1 h2 _ ih =>
    obtain ⟨hfst, hsnd⟩ := mvm26_range m v1 v2
    have hback := hundo v1 v2 (by omega) (by omega) (by omega) (by omega)
    simp only [pairProducts, Int.toNat_of_nonneg hfst.1, Int.toNat_of_nonneg hsnd.1, hback, Int.toNat_natCast, ih]

/-- The letters of the products stand pair by pair where the pairs stood (R138, R140). -/
theorem lettersOfProducts_pairProducts : lettersOfProducts m sym (letters (pairProducts m sym)) := by
  refine ⟨(List.length_map _).trans (pairProducts_length hsym), ?_⟩
  induction hsym with
  | nil => simp
  | cons _ _ _ ih =>
    rintro (_ | j) w1 w2 hw1 hw2
    · cases hw1
      cases hw2
      exact ⟨rfl, rfl⟩
    · exact ih j w1 w2 hw1 hw2

end

end Sys2Proof.Machine
end

section
/-! The encrypt and decrypt calls (R139 to R143): the result is a function of the key integers and the text. -/

namespace Sys2Proof.Machine

/-- The matrix a call multiplies the pairs by: the key for encrypt, the inverse key for decrypt (R140, R141). -/
def Instr.CallMatrix (i : Instr) (k m : Matrix2) : Prop :=
  (i = .enc ∧ m = k) ∨ (i = .dec ∧ m = invkey26 k (inv26 (det26 k)))

theorem callMatrix_enc (k : Matrix2) : Instr.CallMatrix .enc k k := .inl ⟨rfl, rfl⟩

theorem callMatrix_dec (k : Matrix2) : Instr.CallMatrix .dec k (invkey26 k (inv26 (det26 k))) := .inr ⟨rfl, rfl⟩

/-- A validated key leaves the block ready for the pairs of either call (R133). -/
theorem readyFor_validate {i : Instr} {m : Matrix2} {b : Block} (hm : Instr.CallMatrix i b.key m)
    (hok : keyCheck b.key = .ok) : (commanded .validate b).ReadyFor i m where
  valid := (validate_verdict hok).2
  err := (validate_verdict hok).1
  matrix := by
    have hdetinv : symbolInt (commanded .validate b).detinv = inv26 (det26 b.key) := validate_detinv_toNat b
    rw [hdetinv]
    exact hm

/-- Either the key validates, or the validateKey call ends in an error that is no bug of the host (R133, R134). -/
theorem keyVerdict_cases (k : Matrix2) :
    (keyInRange k = true ∧ keyCheck k = .ok) ∨ ∃ e, keyVerdict k = .error e ∧ e ≠ .internal := by
  cases hk : keyInRange k with
  | false => exact .inr ⟨_, keyVerdict_of_not_inRange hk, by simp⟩
  | true =>
    rcases keyCheck_cases k with ⟨-, hc⟩ | ⟨-, -, hc⟩ | ⟨-, -, -, hc⟩ | ⟨-, -, -, hc⟩
    · exact .inr ⟨_, keyVerdict_of_allZero hk hc, by simp⟩
    · exact .inr ⟨_, keyVerdict_of_singular hk hc, by simp⟩
    · exact .inr ⟨_, keyVerdict_of_nonInvertible hk hc, by simp⟩
    · exact .inl ⟨rfl, hc⟩

/-- The text a call returns on a validated key, or EmptyInput, see `transformText_spec` (R140, R141). -/
def textResult (m : Matrix2) (text : Text) : Except HostError Text :=
  (normalizeText text).map fun sym => letters (pairProducts m sym)

theorem transformText_spec {i : Instr} {m : Matrix2} {s : State} (h : s.block.ReadyFor i m) (text : Text) :
    ∃ t, transformText i text s = .next (textResult m text, t) ∧ t.block.ReadyFor i m ∧ s.ServedTo t := by
  unfold transformText textResult
  cases hnorm : normalizeText text with
  | error e => exact ⟨s, rfl, h, servedTo_refl s⟩
  | ok sym =>
    obtain ⟨t, hrun, ht⟩ := sendPairs_spec (normalizeText_ok hnorm).2 h
    refine ⟨t, ?_, ht⟩
    dsimp only
    rw [hrun]
    rfl

/-- The result of a whole call, see `callWithKey_spec` (R139). -/
def callResult (k m : Matrix2) (text : Text) : Except HostError Text :=
  (keyVerdict k).bind fun _ => textResult m text

/-- A whole call: the key's error, or the result on the text; the code left in ERR is that of the key checks (R134, R139). -/
theorem callWithKey_spec {i : Instr} {k m : Matrix2} (hm : Instr.CallMatrix i k m) (text : Text) (s : State) :
    ∃ t, callWithKey i k text s = .next (callResult k m text, t) ∧ s.ServedTo t ∧
      (keyInRange k = true → t.block.err = keyCheck k) := by
  obtain ⟨u, hkey, hsu, hblock⟩ := validateKey_spec k s
  rcases keyVerdict_cases k with ⟨hk, hok⟩ | ⟨e, he, -⟩
  · have hload := loadKey_key hk s.block
    have hready : u.block.ReadyFor i m := by
      rw [hblock hk]
      exact readyFor_validate (hload.symm ▸ hm) (hload.symm ▸ hok)
    obtain ⟨t, hrun, ht, hut⟩ := transformText_spec hready text
    refine ⟨t, ?_, hsu.trans hut, fun _ => ht.err.trans hok.symm⟩
    rw [callWithKey, hkey, callResult, keyVerdict_of_ok hk hok, andThen_next]
    exact hrun
  · refine ⟨u, ?_, hsu, fun hk => ?_⟩
    · rw [he] at hkey
      rw [callWithKey_of_error hkey, callResult, he]
      rfl
    · rw [hblock hk]
      exact (validate_verdict (congrArg keyCheck (loadKey_key hk s.block))).1

/-- Settles O54: the result of each call is `keyVerdict` or `callResult`, which do not see the machine. -/
theorem hostCallsDependOnlyOnTheirArguments : Obligations.HostCallsDependOnlyOnTheirArguments := by
  unfold Obligations.HostCallsDependOnlyOnTheirArguments
  intro k text s s'
  have call {i : Instr} {m : Matrix2} (hm : Instr.CallMatrix i k m) :
      ∃ r t t', callWithKey i k text s = .next (r, t) ∧ callWithKey i k text s' = .next (r, t') := by
    obtain ⟨t, hrun, -⟩ := callWithKey_spec hm text s
    obtain ⟨t', hrun', -⟩ := callWithKey_spec hm text s'
    exact ⟨_, t, t', hrun, hrun'⟩
  obtain ⟨t, hrun, -⟩ := validateKey_spec k s
  obtain ⟨t', hrun', -⟩ := validateKey_spec k s'
  exact ⟨⟨_, t, t', hrun, hrun'⟩, call (callMatrix_enc k), call (callMatrix_dec k)⟩

theorem textResult_ne_internal (m : Matrix2) (text : Text) : textResult m text ≠ .error .internal := by
  unfold textResult
  cases hnorm : normalizeText text with
  | error e =>
    obtain rfl := normalizeText_error hnorm
    exact nofun
  | ok sym => exact nofun

theorem callResult_ne_internal (k m : Matrix2) (text : Text) : callResult k m text ≠ .error .internal := by
  rcases keyVerdict_cases k with ⟨hk, hok⟩ | ⟨e, he, hne⟩
  · rw [callResult, keyVerdict_of_ok hk hok]
    exact textResult_ne_internal m text
  · rw [callResult, he]
    rintro ⟨⟩
    exact hne rfl

/-- The codes VALIDATE ends with are 0 to 3 (R110, R134). -/
theorem keyCheck_le_three (k : Matrix2) :
    keyCheck k = .ok ∨ keyCheck k = .keyAllZero ∨ keyCheck k = .keySingular ∨ keyCheck k = .keyNonInvertible := by
  rcases keyCheck_cases k with ⟨-, hc⟩ | ⟨-, -, hc⟩ | ⟨-, -, -, hc⟩ | ⟨-, -, -, hc⟩ <;> simp [hc]

/-- Settles O56: neither the key's verdict nor `normalize` is an internal error, and ERR is the code of the key checks. -/
theorem hostCallsSeeNoInternalError : Obligations.HostCallsSeeNoInternalError := by
  unfold Obligations.HostCallsSeeNoInternalError
  intro k text s i hi
  obtain ⟨m, hm⟩ : ∃ m, Instr.CallMatrix i k m := by
    rcases hi with rfl | rfl
    · exact ⟨_, callMatrix_enc k⟩
    · exact ⟨_, callMatrix_dec k⟩
  obtain ⟨t, hrun, ⟨new, hnew, hbus⟩, herr⟩ := callWithKey_spec hm text s
  exact ⟨_, t, new, hrun, callResult_ne_internal k m text, hnew, hbus, fun hk => herr hk ▸ keyCheck_le_three k⟩

section
variable {k : Matrix2} (hk : keyInRange k = true) (hgcd : Int.gcd (det26 k) 26 = 1)
include hk hgcd

theorem callResult_of_valid (m : Matrix2) (text : Text) : callResult k m text = textResult m text := by
  rw [callResult, keyVerdict_of_ok hk (keyCheck_of_gcd_eq_one hgcd)]
  rfl

/-- A call with a key that validates and a text with letters returns the letters of the products (R140, R141). -/
theorem callWithKey_of_symbols {i : Instr} {m : Matrix2} (hm : Instr.CallMatrix i k m) {text : Text} {sym : List Nat}
    (hsym : normalizeText text = .ok sym) (s : State) :
    ∃ t, callWithKey i k text s = .next (.ok (letters (pairProducts m sym)), t) := by
  obtain ⟨t, hrun, -⟩ := callWithKey_spec hm text s
  rw [callResult_of_valid hk hgcd, textResult, hsym] at hrun
  exact ⟨t, hrun⟩

/-- A call with a key that validates and a text without letters returns EmptyInput (R139). -/
theorem callWithKey_of_emptyInput {i : Instr} {m : Matrix2} (hm : Instr.CallMatrix i k m) {text : Text}
    (hempty : normalizeText text = .error .emptyInput) (s : State) :
    ∃ t, callWithKey i k text s = .next (.error .emptyInput, t) := by
  obtain ⟨t, hrun, -⟩ := callWithKey_spec hm text s
  rw [callResult_of_valid hk hgcd, textResult, hempty] at hrun
  exact ⟨t, hrun⟩

end

/-- The letters of symbols are 'A' to 'Z' (R136). -/
theorem letter_range {v : Nat} (hv : v ≤ 25) : 'A' ≤ letter v ∧ letter v ≤ 'Z' := by
  have hcode : (letter v).toNat = 65 + v := code_letter hv
  have hrange : 65 ≤ (letter v).toNat ∧ (letter v).toNat ≤ 90 := by omega
  exact hrange

/-- The text of the products has one letter 'A' to 'Z' per symbol. -/
theorem letters_pairProducts {m : Matrix2} {sym : List Nat} (hsym : SymbolPairs sym) :
    (letters (pairProducts m sym)).length = sym.length ∧
    ∀ x ∈ letters (pairProducts m sym), 'A' ≤ x ∧ x ≤ 'Z' := by
  refine ⟨(List.length_map _).trans (pairProducts_length hsym), List.forall_mem_map.mpr fun v hv => letter_range ?_⟩
  exact (symbolPairs_iff.mp (symbolPairs_pairProducts hsym)).2 v hv

/-- Settles O52: the letters of the products, for encrypt and for decrypt. -/
theorem textResultsHaveThePaddedLength : Obligations.TextResultsHaveThePaddedLength := by
  unfold Obligations.TextResultsHaveThePaddedLength
  intro k text s hk hgcd
  refine ⟨fun sym hsym => ?_, fun hempty => ⟨callWithKey_of_emptyInput hk hgcd (callMatrix_enc k) hempty s,
    callWithKey_of_emptyInput hk hgcd (callMatrix_dec k) hempty s⟩⟩
  have hpairs := (normalizeText_ok hsym).2
  obtain ⟨t, henc⟩ := callWithKey_of_symbols hk hgcd (callMatrix_enc k) hsym s
  obtain ⟨t', hdec⟩ := callWithKey_of_symbols hk hgcd (callMatrix_dec k) hsym s
  exact ⟨⟨_, t, henc, letters_pairProducts hpairs⟩, ⟨_, t', hdec, letters_pairProducts hpairs⟩⟩

/-- Settles O57: both calls return the letters of the products, which `lettersOfProducts_pairProducts` places. -/
theorem textResultsAreTheMatrixProducts : Obligations.TextResultsAreTheMatrixProducts := by
  unfold Obligations.TextResultsAreTheMatrixProducts
  intro k text sym s hk hgcd hsym
  have hpairs := (normalizeText_ok hsym).2
  obtain ⟨t, henc⟩ := callWithKey_of_symbols hk hgcd (callMatrix_enc k) hsym s
  obtain ⟨t', hdec⟩ := callWithKey_of_symbols hk hgcd (callMatrix_dec k) hsym s
  exact ⟨⟨_, t, henc, lettersOfProducts_pairProducts hpairs⟩, ⟨_, t', hdec, lettersOfProducts_pairProducts hpairs⟩⟩

/-- The inverse key of a key that validates undoes it (R99). -/
theorem invkey26_undoes {k : Matrix2} (hgcd : Int.gcd (det26 k) 26 = 1) :
    (invkey26 k (inv26 (det26 k))).Undoes k := by
  obtain ⟨h0, h25⟩ := det26_range k
  intro v1 v2 h1 h1' h2 h2'
  exact (inverseKeyUndoesTheKey k v1 v2 ((inv26_ne_zero_iff _ h0 h25).mpr hgcd) h1 h1' h2 h2').1

/-- Settles O53: `normalize` gives decrypt the products back, and the inverse key takes them to the symbols of the text. -/
theorem decryptUndoesEncrypt : Obligations.DecryptUndoesEncrypt := by
  unfold Obligations.DecryptUndoesEncrypt
  intro k text sym s s' hk hgcd hsym
  obtain ⟨hne, hpairs⟩ := normalizeText_ok hsym
  have hne' : pairProducts k sym ≠ [] := by
    rw [← List.length_pos_iff, pairProducts_length hpairs]
    exact List.length_pos_iff.mpr hne
  have hback := normalizeText_letters hne' (symbolPairs_pairProducts hpairs)
  obtain ⟨t, henc⟩ := callWithKey_of_symbols hk hgcd (callMatrix_enc k) hsym s
  obtain ⟨t', hdec⟩ := callWithKey_of_symbols hk hgcd (callMatrix_dec k) hback s'
  rw [pairProducts_pairProducts hpairs (invkey26_undoes hgcd)] at hdec
  exact ⟨_, t, t', henc, hdec⟩

end Sys2Proof.Machine
end

section
/-! Code 4 of ERR is the host's alone: no check of a command answers it and no event writes it (R152). -/

namespace Sys2Proof.Machine

/-- A key check answers code 0, 1, 2 or 3. -/
theorem keyCheck_ne_emptyInput (k : Matrix2) : keyCheck k ≠ .emptyInput := by
  rcases keyCheck_cases k with ⟨-, hc⟩ | ⟨-, -, hc⟩ | ⟨-, -, -, hc⟩ | ⟨-, -, -, hc⟩ <;> simp [hc]

/-- An operand check answers code 0, 5 or 6. -/
theorem operandCheck_ne_emptyInput (b : Block) : operandCheck b ≠ .emptyInput := by
  rcases operandCheck_cases b with ⟨-, hc⟩ | ⟨-, -, hc⟩ | ⟨-, -, -, hc⟩ <;> simp [hc]

/-- A command writes the answer of its own check into ERR, whatever was there before. -/
theorem commanded_err_ne_emptyInput (i : Instr) (b : Block) : (commanded i b).err ≠ .emptyInput := by
  cases i with
  | validate => exact keyCheck_ne_emptyInput b.key
  | enc | dec =>
    rw [commanded, transformed_err]
    exact operandCheck_ne_emptyInput b

/-- No event brings code 4 into ERR: the Writes to CMD put another code there, Reset puts 0, the rest leave ERR as it is. -/
theorem blockAfter_err_ne_emptyInput (e : HostEvent) {b : Block} (hb : b.err ≠ .emptyInput) :
    (blockAfter e b).err ≠ .emptyInput := by
  cases e.kind with
  | reset => exact (by decide : Block.reset.err ≠ .emptyInput)
  | keyWrite w hr =>
    obtain ⟨-, -, -, -, -, -, -, herr⟩ := storeReg_key_frame hr w b
    rwa [blockAfter_keyWrite hr, herr]
  | vinWrite w => rwa [blockAfter_vinWrite, setVin_err]
  | command i =>
    rw [blockAfter_command]
    exact commanded_err_ne_emptyInput i b
  | reserved w hafter =>
    rw [hafter, setErr_err]
    decide
  | idle _ hafter => rwa [hafter]

/-- Settles O24: the step is the event at the front of the port or nothing, and every event of a run from Reset keeps ERR ≠ 4. -/
theorem blockNeverReportsEmptyInput : Obligations.BlockNeverReportsEmptyInput := by
  unfold Obligations.BlockNeverReportsEmptyInput
  refine ⟨fun s hs => ?_, fun es => ⟨_, runEvents_eq es _, ?_⟩⟩
  · cases hport : s.port with
    | nil => exact ⟨s, step_nil hport, hs⟩
    | cons e rest => exact ⟨_, step_cons hport, blockAfter_err_ne_emptyInput e hs⟩
  · exact stateAfterAll_keeps (P := fun b => b.err ≠ .emptyInput) es
      (fun e _ _ => blockAfter_err_ne_emptyInput e) _ (by decide)

end Sys2Proof.Machine
end

section
/-! Reset, and the hazards it and a key write leave behind: what is read and refused while VALID is 0 (R170, R171, R175, R179). -/

namespace Sys2Proof.Machine

/-- With VALID = 0, ENC and DEC change ERR alone, to NO_KEY (R122). -/
theorem commanded_of_not_valid {i : Instr} (hi : i = .enc ∨ i = .dec) {b : Block} (hvalid : b.valid = false) :
    commanded i b = b.setErr .noKey := by
  rcases hi with rfl | rfl <;> exact transformed_noKey _ hvalid

/-- Only a VALIDATE can raise VALID (R28). -/
theorem blockAfter_valid_of_not_valid {e : HostEvent} (he : e ≠ cmdWrite 1#32) {b : Block} (hvalid : b.valid = false) :
    (blockAfter e b).valid = false := by
  refine Bool.eq_false_iff.mpr fun hafter => ?_
  rw [(valid_before_of_valid_after he hafter).1] at hvalid
  cases hvalid

/-- Settles O37: the key write clears VALID, no event but a VALIDATE raises it, and ENC and DEC find it 0. -/
theorem noResultBeforeTheNewKeyIsValidated : Obligations.NoResultBeforeTheNewKeyIsValidated := by
  unfold Obligations.NoResultBeforeTheNewKeyIsValidated
  intro s e es i he hes hi
  have hvalid : (stateAfterAll (e :: es) s).block.valid = false :=
    stateAfterAll_keeps (P := fun b => b.valid = false) es
      (fun x hx _ => blockAfter_valid_of_not_valid (hes x hx)) _ (blockAfter_valid_of_writesKey he s.block)
  refine ⟨_, _, runEvents_eq _ s, runEvents_eq _ _, ?_⟩
  exact (blockAfter_command i _).trans (commanded_of_not_valid hi hvalid)

/-- A Read or a Write adds exactly one response (R50). -/
theorem exists_responsesTo_eq_singleton {e : HostEvent} (he : e.answered = true) (b : Block) :
    ∃ r, responsesTo e b = [r] := by
  cases e with
  | read | write => exact ⟨_, rfl⟩
  | reset => cases he

/-- Settles O25: with nothing at the port the state is its own next state; otherwise the step takes the event at the front and adds its responses. -/
theorem everyStepGoesOn : Obligations.EveryStepGoesOn := by
  unfold Obligations.EveryStepGoesOn
  intro s
  cases hport : s.port with
  | nil => exact ⟨s, step_nil hport, hport, nofun, nofun, fun _ => rfl⟩
  | cons e rest =>
    refine ⟨_, step_cons hport, rfl, fun e' rest' hfront he => ?_, fun rest' hfront => ?_, nofun⟩
    · cases hfront
      obtain ⟨r, hr⟩ := exists_responsesTo_eq_singleton he s.block
      exact ⟨r, congrArg (· ++ s.answers) hr⟩
    · cases hfront
      rfl

/-- Settles O41: the step of a Reset at the front of the port replaces the block by `Block.reset` and adds no response. -/
theorem resetZeroesTheTwelveElements : Obligations.ResetZeroesTheTwelveElements := by
  unfold Obligations.ResetZeroesTheTwelveElements
  exact ⟨fun _ _ hport => step_cons hport, fun s => ⟨_, step_present .reset s, rfl⟩⟩

/-- Every readable register of the reset block reads 0 (R171). -/
theorem readReg_reset {r : Reg} (hr : r ≠ .cmd) : readReg r Block.reset = some 0#32 := by
  cases r with
  | cmd => exact absurd rfl hr
  | k11 | k12 | k21 | k22 | vin | status | det | detinv | ikey | vout => decide

/-- Settles O42: each readable offset is that of a register other than CMD, which reads 0; the key is all-zero and VALID is 0. -/
theorem firstReadsAfterResetAreZero : Obligations.FirstReadsAfterResetAreZero := by
  unfold Obligations.FirstReadsAfterResetAreZero
  intro s hs
  have hblock : s.block = Block.reset := hs
  have hvalid : s.block.valid = false := hblock ▸ rfl
  have hcheck : keyCheck s.block.key = .keyAllZero := hblock ▸ keyCheck_zero
  have herr {i : Instr} (hi : i = .enc ∨ i = .dec) : (commanded i s.block).err = .noKey := by
    rw [commanded_of_not_valid hi hvalid, setErr_err]
  refine ⟨fun off halign hlt hcmd => ?_, step_read 0x14#6 4 s, ⟨_, exec_eq .validate s, validate_verdict hcheck⟩,
    ⟨_, exec_eq .enc s, herr (.inl rfl)⟩, ⟨_, exec_eq .dec s, herr (.inr rfl)⟩⟩
  obtain ⟨r, rfl⟩ := exists_offset_eq halign hlt
  have hread : readReg r s.block = some 0#32 := hblock ▸ readReg_reset (mt r.eq_cmd_iff.mp hcmd)
  exact step_readAt hread

end Sys2Proof.Machine
end

section
/-! The ranges of `HostEvent.wellFormed` beside the answers of the machine (R53, R55). -/

namespace Sys2Proof.Machine

/-- A Read is ill-formed for one of the reasons R53 gives to refuse it. -/
theorem wellFormed_read_eq_false_iff {off : Offset} {bytes : Nat} :
    (HostEvent.read off bytes).wellFormed = false ↔
      off.toNat % 4 ≠ 0 ∨ 0x2C ≤ off.toNat ∨ off.toNat = 0x14 ∨ bytes ≠ 4 := by
  simp only [HostEvent.wellFormed, HostEvent.readableOffset, HostEvent.aligned, Bool.and_eq_false_iff,
    beq_eq_false_iff_ne, bne_eq_false_iff_eq, decide_eq_false_iff_not, not_lt, or_assoc]

/-- A Write is ill-formed for one of the reasons R53 gives to refuse it: no multiple of 4 lies between CMD at 0x14 and
the first read-only register at 0x18. -/
theorem wellFormed_write_eq_false_iff {off : Offset} {bytes : Nat} {lanes : BitVec 4} {w : Word} :
    (HostEvent.write off bytes lanes w).wellFormed = false ↔
      off.toNat % 4 ≠ 0 ∨ 0x18 ≤ off.toNat ∨ bytes ≠ 4 ∨ lanes ≠ 0xF#4 := by
  have hbound : off.toNat % 4 ≠ 0 ∨ ¬ off.toNat ≤ 0x14 ↔ off.toNat % 4 ≠ 0 ∨ 0x18 ≤ off.toNat := by omega
  simp only [HostEvent.wellFormed, HostEvent.writableOffset, HostEvent.aligned, Bool.and_eq_false_iff,
    beq_eq_false_iff_ne, decide_eq_false_iff_not]
  rw [hbound, or_assoc, or_assoc]

/-- Settles O27: the ill-formed Reads and Writes are the ones O26 says are refused, and it gives the others another answer. -/
theorem wellFormedTransactionsAreTheAnsweredOnes : Obligations.WellFormedTransactionsAreTheAnsweredOnes := by
  unfold Obligations.WellFormedTransactionsAreTheAnsweredOnes
  intro s e he
  cases e with
  | reset => cases he
  | read off bytes =>
    obtain ⟨hrefused, hanswered, -, -⟩ := unsupportedAccessesAnswerBusError s off bytes 0#4 0#32
    rw [wellFormed_read_eq_false_iff]
    by_cases h : off.toNat % 4 ≠ 0 ∨ 0x2C ≤ off.toNat ∨ off.toNat = 0x14 ∨ bytes ≠ 4
    · exact ⟨_, _, hrefused h, rfl, iff_of_true rfl h⟩
    · obtain ⟨v, hv⟩ := hanswered h
      exact ⟨_, _, hv, rfl, iff_of_false nofun h⟩
  | write off bytes lanes w =>
    obtain ⟨-, -, hrefused, hanswered⟩ := unsupportedAccessesAnswerBusError s off bytes lanes w
    rw [wellFormed_write_eq_false_iff]
    by_cases h : off.toNat % 4 ≠ 0 ∨ 0x18 ≤ off.toNat ∨ bytes ≠ 4 ∨ lanes ≠ 0xF#4
    · exact ⟨_, _, hrefused h, rfl, iff_of_true rfl h⟩
    · obtain ⟨t, hstep, hanswers⟩ := hanswered h
      exact ⟨t, _, hstep, hanswers, iff_of_false nofun h⟩

end Sys2Proof.Machine
end

section
/-! The `setkey` script in any order (R82): Writes of registers commute when each register has one word. -/

namespace Sys2Proof.Machine

/-- Stores commute, where the word of a store is a function of its register: stores of two registers touch different
elements, but for VALID, which each key store clears. -/
theorem storeReg_comm (word : Reg → Word) (q r : Reg) (b : Block) :
    storeReg r (word r) (storeReg q (word q) b) = storeReg q (word q) (storeReg r (word r) b) := by
  cases q <;> cases r <;> rfl

/-- The word `setkey k11, k12, k21, k22` has for each register (R82); it has none, here 0, for the others. -/
def Matrix2.keyWord (k : Matrix2) (r : Reg) : Word :=
  match r with
  | .k11 => word32 k.m11
  | .k12 => word32 k.m12
  | .k21 => word32 k.m21
  | .k22 => word32 k.m22
  | .vin | .cmd | .status | .det | .detinv | .ikey | .vout => 0#32

/-- A line of `setkey` is the key write of one register with its word. -/
theorem exists_keyWrite_of_mem_setkey {a b c d : Int} {l : ScriptLine} (hl : l ∈ setkey a b c d) :
    ∃ r : Reg, r.IsKey ∧ l.event = writeAt r.offset (Matrix2.keyWord ⟨a, b, c, d⟩ r) := by
  simp only [setkey, List.mem_cons, List.not_mem_nil, or_false] at hl
  rcases hl with rfl | rfl | rfl | rfl
  · exact ⟨.k11, by decide, rfl⟩
  · exact ⟨.k12, by decide, rfl⟩
  · exact ⟨.k21, by decide, rfl⟩
  · exact ⟨.k22, by decide, rfl⟩

/-- The block after a script: each line's event in turn. -/
def blockAfterScript (ls : List ScriptLine) (b : Block) : Block := ls.foldl (fun c l => blockAfter l.event c) b

theorem runScript_block (ls : List ScriptLine) (s : State) :
    ∃ t, runScript ls s = .next t ∧ t.block = blockAfterScript ls s.block := by
  refine ⟨_, runEvents_eq _ s, ?_⟩
  induction ls generalizing s with
  | nil => rfl
  | cons l ls ih => exact ih (stateAfter l.event s)

theorem blockAfterScript_setkey (a b c d : Int) (x : Block) :
    blockAfterScript (setkey a b c d) x = x.loadKey ⟨a, b, c, d⟩ := rfl

/-- Any two lines of `setkey` commute, so every order of them ends in the same block. -/
theorem blockAfterScript_perm_setkey {a b c d : Int} {ls : List ScriptLine} (hperm : ls.Perm (setkey a b c d))
    (x : Block) : blockAfterScript ls x = x.loadKey ⟨a, b, c, d⟩ := by
  rw [← blockAfterScript_setkey]
  refine hperm.foldl_eq' (fun l hl m hm y => ?_) x
  obtain ⟨q, hq, hl⟩ := exists_keyWrite_of_mem_setkey (hperm.mem_iff.mp hl)
  obtain ⟨r, hr, hm⟩ := exists_keyWrite_of_mem_setkey (hperm.mem_iff.mp hm)
  simp only [hl, hm, blockAfter_keyWrite hq, blockAfter_keyWrite hr]
  exact storeReg_comm _ q r y

/-- Settles O43: the script runs to a block, which is the one of `setkey` in its own order. -/
theorem setkeyOrderDoesNotMatter : Obligations.SetkeyOrderDoesNotMatter := by
  unfold Obligations.SetkeyOrderDoesNotMatter
  intro a b c d ls s hperm
  obtain ⟨t, hrun, hblock⟩ := runScript_block ls s
  exact ⟨t, hrun, hblock.trans (blockAfterScript_perm_setkey hperm s.block)⟩

end Sys2Proof.Machine
end

section
/-! The opcode map and the step of a decoded command (R72), the numbers of the error codes (R150), and the INV unit by extended Euclid (R98). -/

namespace Sys2Proof.Machine

/-- Settles O1: the three command words are the encodings of the commands, and the five others are reserved. -/
theorem commandWordsDecodeAsTheTableSays : Obligations.CommandWordsDecodeAsTheTableSays := by
  unfold Obligations.CommandWordsDecodeAsTheTableSays
  exact ⟨decode_encode .validate, decode_encode .enc, decode_encode .dec, by decide⟩

/-- Settles O3: the Write of a word to CMD is answered with what the decoded command makes of the block, and Ok. -/
theorem stepRunsTheDecodedCommand : Obligations.StepRunsTheDecodedCommand := by
  unfold Obligations.StepRunsTheDecodedCommand
  intro s rest w i hport hdecode
  rw [step_cmdWrite hport, afterCmdWord, hdecode, exec_eq, andThen_next]
  rfl

/-- Settles O17: both forms of the INV unit, compared at each of the 26 determinants. -/
theorem extendedEuclidEqualsTheSearch : Obligations.ExtendedEuclidEqualsTheSearch := by
  unfold Obligations.ExtendedEuclidEqualsTheSearch
  exact forall_det (P := fun d => inv26Euclid d = inv26 d) (by decide)

/-- Settles O29: `ErrCode.bits` read off at each code. -/
theorem errorCodesHaveTheirNumbers : Obligations.ErrorCodesHaveTheirNumbers := by
  unfold Obligations.ErrorCodesHaveTheirNumbers
  exact ⟨rfl, rfl, rfl, rfl, rfl, rfl, rfl, rfl⟩

end Sys2Proof.Machine
end

section
/-! Several instances of the block (R163). -/

namespace Sys2Proof.Machine

/-- A step at a place of the list puts the next state of the block there in that place. -/
theorem stepInstance_eq {n : Nat} {p : Instances} {s t : State} (hs : p[n]? = some s) (hstep : step s = .next t) :
    stepInstance n p = .next (p.set n t) := by
  simp only [stepInstance, hs, hstep, andThen_next]

/-- Settles O45: the list is changed at the place that steps, and nowhere else. -/
theorem instancesShareNothing : Obligations.InstancesShareNothing := by
  unfold Obligations.InstancesShareNothing
  intro n p s hs
  obtain ⟨t, hstep, -⟩ := everyStepGoesOn s
  obtain ⟨hn, -⟩ := List.getElem?_eq_some_iff.mp hs
  exact ⟨p.set n t, t, stepInstance_eq hs hstep, hstep, List.getElem?_set_self hn,
    fun m hm => List.getElem?_set_ne hm.symm⟩

end Sys2Proof.Machine
end
